-- ==== Sys2Proof/Word.lean ====
section
/-! DEFINITION. The byte, the only machine word of the block (spec 00_scope R14, 20_memory R78). -/
namespace Sys2Proof

/-- A byte, bits numbered 0 (least significant) to 7 (R14). -/
abbrev Byte := BitVec 8

end Sys2Proof
end

