-- ==== Sys2Proof/Config.lean ====
section
/-! DEFINITION. What an implementation fixes (the parameters of spec 00_scope R13) and the free values.
The parameters are plain data that State carries, so that a statement about every state is a statement
about every value of every parameter. The free values are opaque constants without a body. -/
namespace Sys2Proof

/-- `PIXEL_BOUNDS_MODE` (R13, D22): which test SET_PIXEL makes (42_drawing R233, R234). -/
inductive PixelBoundsMode where
  | index
  | coordinate
deriving DecidableEq, Repr, Inhabited

/-- An answer of the transport environment to one call (R20, D2). `ok v` is `Handle(v)` for an open, a
byte count `v` for a write, and `Ok` for a register or layer init, where `v` means nothing. -/
inductive Answer where
  | ok (value : Nat)
  | error
deriving DecidableEq, Repr, Inhabited

/-- The parameters of R13 that are not memory contents. -/
structure Params where
  /-- `INIT_SEQ`, 21 bytes (D8). -/
  initSeq : List Byte
  /-- `CTRL_CMD` (D9). -/
  ctrlCmd : Byte
  /-- `CTRL_DATA` (D9). -/
  ctrlData : Byte
  /-- `DC_CMD_LEVEL`, `true` for level 1 (D10). -/
  dcCmdLevel : Bool
  /-- `DC_DATA_LEVEL` (D10). -/
  dcDataLevel : Bool
  /-- `STROBED_CLOCK_HZ` (D11). -/
  strobedClockHz : Nat
  /-- `RESET_HOLD_MS`, at least 10 (D12). -/
  resetHoldMs : Nat
  /-- `PIXEL_BOUNDS_MODE` (D22). -/
  pixelBounds : PixelBoundsMode
  /-- `XFORM_ONCE` (D17). -/
  xformOnce : Bool
deriving DecidableEq, Repr

/-- What R12 and R13 demand of the parameters: 21 initialization bytes, a reset hold of at least 10 ms. -/
def Params.wf (p : Params) : Bool := p.initSeq.length == 21 && decide (10 ≤ p.resetHoldMs)

/-- `STROBED_CLOCK_HZ` is OPEN, with no default (R13, D11): a free value. -/
opaque Config.strobedClockHz : Nat

/-- `SHADOW_INIT` is OPEN (R13, D18): a free value, as (index, byte) pairs; an index not listed holds 0. -/
opaque Config.shadowInit : List Host.Cell

/-- `FONT8_INIT` is OPEN (R13, D20): a free value, in the same form. -/
opaque Config.font8Init : List Host.Cell

/-- `FONT16_INIT` is OPEN (R13, D20): a free value, in the same form. -/
opaque Config.font16Init : List Host.Cell

/-- The answer of the transport environment to the n-th draw of a run, where no answer is given in State:
a free value (R20: "a draw chosen by the transport environment"). -/
opaque Config.freeAnswer : Nat → Answer

/-- The default `INIT_SEQ` (R13, R124). PRESUMED: the spec marks it general knowledge (log 2). -/
def Config.defaultInitSeq : List Byte :=
  [0xAE, 0xA8, 0x3F, 0xD3, 0x00, 0x40, 0xA1, 0xC8, 0xDA, 0x12, 0x81, 0xFF, 0xA4, 0xA6, 0xD5, 0x80,
   0x8D, 0x14, 0xAF, 0x20, 0x02]

/-- The parameters at their defaults (R13). PRESUMED where the spec marks general knowledge (log 2). -/
def Config.defaultParams : Params where
  initSeq := Config.defaultInitSeq
  ctrlCmd := 0x00
  ctrlData := 0x40
  dcCmdLevel := false
  dcDataLevel := true
  strobedClockHz := Config.strobedClockHz
  resetHoldMs := 10
  pixelBounds := .index
  xformOnce := false

end Sys2Proof
end

