-- ==== Sys2Proof/Syntax.lean ====
section
/-! DEFINITION. The instructions: one constructor per row of spec/opcode_table.json (31 rows), with the
operands of spec 30_encoding R110 (host requests, the abstract record), R128 (micro-operations), R118 to
R123 (controller commands) and R124 (commands of the initialization sequence). -/
namespace Sys2Proof

/-- The three encodings that meet in the block (30_encoding, head): each is decoded on its own port. -/
inductive Port where
  /-- Serialized host requests (R111). -/
  | host
  /-- Micro-operations of the sequencer (R128). -/
  | sequencer
  /-- Commands of the controller byte stream (R118, R124). -/
  | controller
deriving DecidableEq, Repr

/-- The instructions. Integers are unbounded, as R15 and R110 have them; bytes and bit fields are bits. -/
inductive Instr where
  /-- INIT (R110, R150). -/
  | init (channel address : Nat) (flip invert strobed : Bool) (dcLine resetLine : Nat)
  /-- SHUTDOWN (R156). -/
  | shutdown
  /-- FILL (R230). -/
  | fill (pattern : Byte)
  /-- SET_PIXEL (R236). -/
  | setPixel (x y : Int) (color : Byte)
  /-- WRITE_STRING (R239). -/
  | writeString (col row : Int) (text : List Byte) (large : Bool)
  /-- SET_CONTRAST (R158). -/
  | setContrast (level : Byte)
  /-- SET_CURSOR (R166). -/
  | setCursor (column page : Int)
  /-- WRITE_COMMAND (R160). -/
  | writeCommand (bytes : List Byte)
  /-- WRITE_DATA (R170). -/
  | writeData (bytes : List Byte)
  /-- XFORM8 (R201). -/
  | xform8
  /-- XFORM16 (R204). -/
  | xform16
  /-- Display-off `AE` (R123). -/
  | displayOff
  /-- Contrast-set `81 level` (R122). -/
  | setContrastCmd (level : Byte)
  /-- Page-select `B0 | low8(page)` (R119), for any integer page. -/
  | pageSelect (page : Int)
  /-- Column-low `00 | nibble` (R120). -/
  | columnLow (nibble : BitVec 4)
  /-- Column-high `10 | nibble` (R121). -/
  | columnHigh (nibble : BitVec 4)
  /-- Invert `A7` (R123). -/
  | invertDisplay
  /-- First byte of the flip pair, `A0` (R123). -/
  | remapA0
  /-- Second byte of the flip pair, `C0` (R123). -/
  | remapC0
  /-- Multiplex ratio `A8 ratio` (R124). -/
  | setMultiplex (ratio : Byte)
  /-- Display offset `D3 offset` (R124). -/
  | setDisplayOffset (offset : Byte)
  /-- Display start line `40 | line` (R124). -/
  | setStartLine (line : BitVec 6)
  /-- Segment remap `A1` (R124). -/
  | segmentRemapA1
  /-- COM scan direction remapped `C8` (R124). -/
  | comScanRemapped
  /-- COM pins configuration `DA config` (R124). -/
  | setComPins (config : Byte)
  /-- Display follows RAM `A4` (R124). -/
  | displayFollowRam
  /-- Normal display `A6` (R124). -/
  | normalDisplay
  /-- Clock divide ratio `D5 divider` (R124). -/
  | setClockDiv (divider : Byte)
  /-- Charge pump `8D setting` (R124). -/
  | chargePump (setting : Byte)
  /-- Display on `AF` (R124). -/
  | displayOn
  /-- Memory addressing mode `20 mode` (R124). -/
  | setAddressingMode (mode : Byte)
deriving DecidableEq, Repr

/-- The encoding an instruction belongs to: the format column of spec/opcode_table.json. -/
def Instr.port : Instr → Port
  | .init .. | .shutdown | .fill .. | .setPixel .. | .writeString .. | .setContrast .. => .host
  | .setCursor .. | .writeCommand .. | .writeData .. | .xform8 | .xform16 => .sequencer
  | .displayOff | .setContrastCmd .. | .pageSelect .. | .columnLow .. | .columnHigh .. | .invertDisplay
  | .remapA0 | .remapC0 | .setMultiplex .. | .setDisplayOffset .. | .setStartLine .. | .segmentRemapA1
  | .comScanRemapped | .setComPins .. | .displayFollowRam | .normalDisplay | .setClockDiv ..
  | .chargePump .. | .displayOn | .setAddressingMode .. => .controller

end Sys2Proof
end

