-- ==== Sys2Proof/Machine/State.lean ====
section
/-! DEFINITION. The state of the block (spec 10_state R30 to R48): every piece of it as plain data, beside it what
the host and the transport environment have given (their requests, their answers), and the state after reset. -/
namespace Sys2Proof.Machine

/-- `SESSION` (R33). -/
inductive Session where
  | uninitialized
  | active
  | closed
deriving DecidableEq, Repr

/-- `KIND`, the transport kind (R34). -/
inductive Kind where
  | addressed
  | strobed
deriving DecidableEq, Repr

/-- A byte memory (R40 to R42): what it held at reset, and the bytes that now differ from that, by strictly
rising index. An index that `init` does not list held 0 at reset. -/
structure Memory where
  init : List Host.Cell
  cells : List Host.Cell
deriving DecidableEq, Repr

/-- The events on the transport port (20_memory R84 to R91). A handle argument is what HANDLE holds
(R125: `WriteAddressed(HANDLE, ...)`; log 11). A level is `true` for 1. -/
inductive Event where
  | hwInit
  | hwShutdown
  | openAddressed (channel address : Nat)
  | openStrobed (channel rate : Nat)
  | closeAddressed (handle : Option Nat)
  | closeStrobed (handle : Option Nat)
  | writeAddressed (handle : Option Nat) (ctrl : Byte) (bytes : List Byte)
  | writeStrobed (handle : Option Nat) (bytes : List Byte)
  | gpioRegister (line : Nat)
  | gpioWrite (line : Nat) (level : Bool)
  | delay (ms : Nat)
deriving DecidableEq, Repr

/-- A response code: 0, 1 or -1 (R270). -/
inductive Code where
  | zero
  | one
  | minusOne
deriving DecidableEq, Repr

/-- A request as the host gives it: bytes on a port (R111), or the abstract record (R110). -/
inductive Payload where
  | bytes (port : Port) (content : List Byte)
  | record (i : Instr)
deriving DecidableEq, Repr

/-- One entry of the host's list of requests. `overlapping` says that the host issued it before the previous
request had returned, or from a second thread (R283; log 12). -/
structure Submission where
  payload : Payload
  overlapping : Bool
deriving DecidableEq, Repr

/-- The model faults with their info (R276 to R281). -/
inductive FaultCause where
  /-- Code 1: the bytes are no request; the opcode byte, none when there was no byte. -/
  | illegalRequest (op : Option Byte)
  /-- Code 2: a shadow access of `len` bytes at `start` leaves 0..1023. -/
  | shadowRange (start : Int) (len : Nat)
  /-- Code 3: a large-font character code of 128 or more. -/
  | glyphRange (code : Byte)
  /-- Code 4: WRITE_STRING with col < 0, row < 0 or row > 7. -/
  | badArgument (col row : Int)
  /-- Code 5: INIT while SESSION = Active. -/
  | reinitActive
deriving DecidableEq, Repr

/-- The record FAULT holds: the fault with its info, and the request being processed (R276). -/
structure FaultRecord where
  cause : FaultCause
  request : Payload
deriving DecidableEq, Repr

/-- Why the machine stops with a fault. -/
inductive Fault where
  /-- Raised by `step` when FAULT holds a record: "the faulted state takes no further request" (R276). Safe: the
  machine stops where the spec gives no meaning (log 5). -/
  | stopped (record : FaultRecord)
deriving DecidableEq, Repr

/-- Why an entry of the host's list has no meaning. -/
inductive Refusal where
  /-- Raised by an arm of `exec` whose instruction has no meaning yet (none has this now). Safe. -/
  | notModelled (mnemonic : String)
  /-- Raised by `step` for an entry issued before the previous request had returned: "concurrent calls from
  multiple threads are undefined behavior" (R283, U1). Safe: no move (log 12). -/
  | overlappingRequests
  /-- Raised by `step` for bytes on the sequencer or controller port that are no instruction of that encoding;
  the spec gives such bytes no meaning, and no request of a host issues them. Safe (log 7). -/
  | unassignedCode (port : Port) (op : Option Byte)
deriving DecidableEq, Repr

/-- The state of the block, with the host's requests and the environment's answers beside it. -/
structure State where
  /-- `SESSION` (R33). -/
  session : Session
  /-- `KIND` (R34). -/
  kind : Kind
  /-- `HANDLE` (R35). -/
  handle : Option Nat
  /-- `DC_LINE` (R36). -/
  dcLine : Nat
  /-- `RST_LINE` (R36). -/
  rstLine : Nat
  /-- `CURSOR` (R37), an unbounded integer (R15). -/
  cursor : Int
  /-- `XFORM_COUNT` (R38). -/
  xformCount : Nat
  /-- `SHADOW`, 1024 bytes (R40). -/
  shadow : Memory
  /-- `FONT8`, 2048 bytes (R41). -/
  font8 : Memory
  /-- `FONT16`, 8192 bytes (R42). -/
  font16 : Memory
  /-- `FAULT` (R43). -/
  fault : Option FaultRecord
  /-- `TRACE` (R44), oldest event first. -/
  trace : List Event
  /-- The host's list of requests (R31, R321). -/
  program : List Submission
  /-- The index of the next request in that list (R31). -/
  next : Nat
  /-- What each returned request answered, oldest first; none for a request without a code (R133, R321; log 14). -/
  responses : List (Option Code)
  /-- The transport environment's next answers (R20; log 4). The model's own field. -/
  answers : List Answer
  /-- How many answers have been drawn (R20; log 4). The model's own field. -/
  drawCount : Nat
  /-- The parameters (00_scope R13); no step writes them. -/
  params : Params
deriving DecidableEq, Repr

/-- The state right after reset (R48, R300 to R302): nothing taken, nothing emitted, memories as at reset. KIND, the
lines and the cursor have no value in the spec: DESIGN CHOICE, log 1. -/
def State.reset : State where
  session := .uninitialized
  kind := .addressed
  handle := none
  dcLine := 0
  rstLine := 0
  cursor := 0
  xformCount := 0
  shadow := ⟨Config.shadowInit, []⟩
  font8 := ⟨Config.font8Init, []⟩
  font16 := ⟨Config.font16Init, []⟩
  fault := none
  trace := []
  program := []
  next := 0
  responses := []
  answers := []
  drawCount := 0
  params := Config.defaultParams

end Sys2Proof.Machine
end

