-- ==== Sys2Proof/Machine/Flags.lean ====
section
/-! DEFINITION. The block has no status flags or condition codes (spec 10_state R32): the only status output of a
request is its response code (60_exceptions R270), and a model fault's only code is its cause code (R276). -/
namespace Sys2Proof.Machine

/-- The serialized response (30_encoding R133): one signed byte, `0x00`, `0x01` or `0xFF`. -/
def Code.byte : Code → Byte
  | .zero => 0x00
  | .one => 0x01
  | .minusOne => 0xFF

/-- The value a code stands for (R270). -/
def Code.value : Code → Int
  | .zero => 0
  | .one => 1
  | .minusOne => -1

/-- What the host receives from one request: one byte, or no byte for a request without a code (R133). -/
def responseBytes : Option Code → List Byte
  | some c => [c.byte]
  | none => []

/-- The cause codes 1 to 5 of the model faults (R276). -/
def FaultCause.code : FaultCause → Nat
  | .illegalRequest _ => 1
  | .shadowRange _ _ => 2
  | .glyphRange _ => 3
  | .badArgument _ _ => 4
  | .reinitActive => 5

end Sys2Proof.Machine
end

