-- ==== Sys2Proof/WellFormed.lean ====
section
/-! DEFINITION. When an instruction's operands fit its encoding: the field widths of spec 30_encoding R112 to
R117 and R119, the transfer lengths of R125, R160 and R170, and the field widths the model gives the
micro-operations (log 8). An abstract request outside these ranges is still legal (R277); it only has no
serialized form. -/
namespace Sys2Proof

/-- The values of a signed 16-bit field (R132). -/
def fitsS16 (v : Int) : Bool := decide (-32768 ≤ v) && decide (v < 32768)

/-- The values of a signed 8-bit field (R132). -/
def fitsS8 (v : Int) : Bool := decide (-128 ≤ v) && decide (v < 128)

/-- The lengths of a command transfer: 1, 2 or 21 (R125, R160). -/
def isCommandLength (n : Nat) : Bool := n == 1 || n == 2 || n == 21

/-- Whether the operands of an instruction fit its encoding. -/
def Instr.wellFormed : Instr → Bool
  | .init channel address _ _ _ dcLine resetLine =>
    decide (channel < 256) && decide (address < 256) && decide (dcLine < 65536) && decide (resetLine < 65536)
  | .shutdown => true
  | .fill _ => true
  | .setPixel x y _ => fitsS16 x && fitsS16 y
  | .writeString col row text _ => fitsS8 col && fitsS8 row && decide (text.length < 256)
  | .setContrast _ => true
  | .setCursor column page => fitsS16 column && fitsS16 page
  | .writeCommand bytes => isCommandLength bytes.length
  | .writeData bytes => decide (1 ≤ bytes.length) && decide (bytes.length ≤ 256)
  | .xform8 => true
  | .xform16 => true
  | .displayOff => true
  | .setContrastCmd _ => true
  | .pageSelect page => decide (0 ≤ page) && decide (page < 8)
  | .columnLow _ => true
  | .columnHigh _ => true
  | .invertDisplay => true
  | .remapA0 => true
  | .remapC0 => true
  | .setMultiplex _ => true
  | .setDisplayOffset _ => true
  | .setStartLine _ => true
  | .segmentRemapA1 => true
  | .comScanRemapped => true
  | .setComPins _ => true
  | .displayFollowRam => true
  | .normalDisplay => true
  | .setClockDiv _ => true
  | .chargePump _ => true
  | .displayOn => true
  | .setAddressingMode _ => true

end Sys2Proof
end

