-- ==== Sys2Proof/Decode.lean ====
section
/-! DEFINITION. Decoding of the three encodings, total on any bytes and rejecting by name (spec 30_encoding R111
to R117, R119 to R124, R128 to R132), and after it the encoder, the opcode table's rows and the assembler
syntax (R134). -/
namespace Sys2Proof

/-- Why bytes are no instruction of a port's encoding (R129), with the opcode byte. -/
inductive Reject where
  /-- No byte at all: there is no opcode. -/
  | empty
  /-- An opcode the encoding does not assign. -/
  | unassigned (op : Byte)
  /-- A reserved flags bit is 1. -/
  | reservedBit (op : Byte)
  /-- Fewer bytes than the format. -/
  | short (op : Byte)
  /-- A transfer length WRITE_COMMAND does not have (R160). -/
  | badLength (op : Byte)
deriving DecidableEq, Repr

/-- The opcode byte of rejected bytes, none when there was none. -/
def Reject.op : Reject → Option Byte
  | .empty => none
  | .unassigned op | .reservedBit op | .short op | .badLength op => some op

/-- What a decoder answers: the instruction and the bytes after it, or why there is none. -/
inductive Decoded where
  | instr (i : Instr) (rest : List Byte)
  | reject (r : Reject)
deriving DecidableEq, Repr

/-! ## Operand assembly (R132) -/

/-- A u16 field: `b0 + 256 b1`. -/
def u16Of (b0 b1 : Byte) : Nat := b0.toNat + 256 * b1.toNat

/-- An s16 field: `v = b0 + 256 b1`, then `v - 65536` if `v ≥ 32768`. -/
def s16Of (b0 b1 : Byte) : Int :=
  if u16Of b0 b1 ≥ 32768 then (u16Of b0 b1 : Int) - 65536 else u16Of b0 b1

/-- An s8 field: `b`, then `b - 256` if `b ≥ 128`. -/
def s8Of (b : Byte) : Int := if b.toNat ≥ 128 then (b.toNat : Int) - 256 else b.toNat

/-! ## Host requests -/

/-- The bytes of an INIT after its opcode (R112). -/
def decodeInit : List Byte → Decoded
  | flags :: channel :: address :: d0 :: d1 :: r0 :: r1 :: rest =>
    if 8 ≤ flags.toNat then .reject (.reservedBit 0x01)
    else .instr (.init channel.toNat address.toNat (flags.getLsbD 0) (flags.getLsbD 1) (flags.getLsbD 2)
      (u16Of d0 d1) (u16Of r0 r1)) rest
  | _ => .reject (.short 0x01)

/-- The byte of a FILL after its opcode (R114). -/
def decodeFill : List Byte → Decoded
  | pattern :: rest => .instr (.fill pattern) rest
  | _ => .reject (.short 0x03)

/-- The bytes of a SET_PIXEL after its opcode (R115). -/
def decodeSetPixel : List Byte → Decoded
  | x0 :: x1 :: y0 :: y1 :: color :: rest => .instr (.setPixel (s16Of x0 x1) (s16Of y0 y1) color) rest
  | _ => .reject (.short 0x04)

/-- The bytes of a WRITE_STRING after its opcode (R116); its length 5 + n is read from byte 4 (R130). -/
def decodeWriteString : List Byte → Decoded
  | flags :: col :: row :: n :: rest =>
    if 2 ≤ flags.toNat then .reject (.reservedBit 0x05)
    else if rest.length < n.toNat then .reject (.short 0x05)
    else .instr (.writeString (s8Of col) (s8Of row) (rest.take n.toNat) (flags.getLsbD 0)) (rest.drop n.toNat)
  | _ => .reject (.short 0x05)

/-- The byte of a SET_CONTRAST after its opcode (R117). -/
def decodeSetContrast : List Byte → Decoded
  | level :: rest => .instr (.setContrast level) rest
  | _ => .reject (.short 0x06)

/-- A host request by its opcode; every opcode but 0x01 to 0x06 is unassigned (R129). -/
def decodeHostOp (op : Byte) (rest : List Byte) : Decoded :=
  if op = 0x01 then decodeInit rest
  else if op = 0x02 then .instr .shutdown rest
  else if op = 0x03 then decodeFill rest
  else if op = 0x04 then decodeSetPixel rest
  else if op = 0x05 then decodeWriteString rest
  else if op = 0x06 then decodeSetContrast rest
  else .reject (.unassigned op)

/-! ## Micro-operations

The codes are the spec's (R128). The spec gives their operands no bytes: DESIGN CHOICE, log 8: s16 fields for
SET_CURSOR, and one byte holding the length less 1 before the bytes of a transfer. -/

/-- The bytes of a SET_CURSOR after its code: column and page, s16 little-endian (log 8). -/
def decodeSetCursor : List Byte → Decoded
  | c0 :: c1 :: p0 :: p1 :: rest => .instr (.setCursor (s16Of c0 c1) (s16Of p0 p1)) rest
  | _ => .reject (.short 0x80)

/-- The bytes of a WRITE_COMMAND after its code: the length less 1, then the bytes (log 8; R160). -/
def decodeWriteCommand : List Byte → Decoded
  | n :: rest =>
    if isCommandLength (n.toNat + 1) then
      if rest.length < n.toNat + 1 then .reject (.short 0x81)
      else .instr (.writeCommand (rest.take (n.toNat + 1))) (rest.drop (n.toNat + 1))
    else .reject (.badLength 0x81)
  | _ => .reject (.short 0x81)

/-- The bytes of a WRITE_DATA after its code: the length less 1, then the bytes (log 8; R170: L ≥ 1). -/
def decodeWriteData : List Byte → Decoded
  | n :: rest =>
    if rest.length < n.toNat + 1 then .reject (.short 0x82)
    else .instr (.writeData (rest.take (n.toNat + 1))) (rest.drop (n.toNat + 1))
  | _ => .reject (.short 0x82)

/-- A micro-operation by its code (R128). -/
def decodeSequencerOp (op : Byte) (rest : List Byte) : Decoded :=
  if op = 0x80 then decodeSetCursor rest
  else if op = 0x81 then decodeWriteCommand rest
  else if op = 0x82 then decodeWriteData rest
  else if op = 0x83 then .instr .xform8 rest
  else if op = 0x84 then .instr .xform16 rest
  else .reject (.unassigned op)

/-! ## Controller commands -/

/-- The commands of one byte: the position commands (R119 to R121) and the fixed ones (R123, R124). -/
def oneByteCommand (op : Byte) : Option Instr :=
  if op &&& 0xF0 = 0x00 then some (.columnLow (op.setWidth 4))
  else if op &&& 0xF0 = 0x10 then some (.columnHigh (op.setWidth 4))
  else if op &&& 0xC0 = 0x40 then some (.setStartLine (op.setWidth 6))
  else if op &&& 0xF8 = 0xB0 then some (.pageSelect (op &&& 0x07).toNat)
  else if op = 0xA0 then some .remapA0
  else if op = 0xA1 then some .segmentRemapA1
  else if op = 0xA4 then some .displayFollowRam
  else if op = 0xA6 then some .normalDisplay
  else if op = 0xA7 then some .invertDisplay
  else if op = 0xAE then some .displayOff
  else if op = 0xAF then some .displayOn
  else if op = 0xC0 then some .remapC0
  else if op = 0xC8 then some .comScanRemapped
  else none

/-- The commands of two bytes, with their operand byte (R122, R124). -/
def twoByteCommand (op operand : Byte) : Option Instr :=
  if op = 0x20 then some (.setAddressingMode operand)
  else if op = 0x81 then some (.setContrastCmd operand)
  else if op = 0x8D then some (.chargePump operand)
  else if op = 0xA8 then some (.setMultiplex operand)
  else if op = 0xD3 then some (.setDisplayOffset operand)
  else if op = 0xD5 then some (.setClockDiv operand)
  else if op = 0xDA then some (.setComPins operand)
  else none

/-- A command of two bytes, from its first byte on: short where its operand byte is missing. -/
def decodeTwoByte (op : Byte) : List Byte → Decoded
  | [] => if (twoByteCommand op 0x00).isSome then .reject (.short op) else .reject (.unassigned op)
  | operand :: rest =>
    match twoByteCommand op operand with
    | some i => .instr i rest
    | none => .reject (.unassigned op)

/-- A command of the controller byte stream by its first byte (R118 to R124), from which its length follows (R131). -/
def decodeControllerOp (op : Byte) (rest : List Byte) : Decoded :=
  match oneByteCommand op with
  | some i => .instr i rest
  | none => decodeTwoByte op rest

/-- The decoder: each encoding on its own port (30_encoding, head). -/
def decode : Port → List Byte → Decoded
  | _, [] => .reject .empty
  | .host, op :: rest => decodeHostOp op rest
  | .sequencer, op :: rest => decodeSequencerOp op rest
  | .controller, op :: rest => decodeControllerOp op rest

/-- A whole command byte stream, command after command (R131); `fuel` bounds the number of commands. -/
def decodeStream : Nat → List Byte → Option (List Instr)
  | _, [] => some []
  | 0, _ :: _ => none
  | fuel + 1, b :: bs =>
    match decodeControllerOp b bs with
    | .instr i rest => (decodeStream fuel rest).map (i :: ·)
    | .reject _ => none

/-! ## The encoder -/

/-- The two bytes of a 16-bit field, low byte first (R111). -/
def bytes16 (n : Nat) : List Byte := [BitVec.ofNat 8 n, BitVec.ofNat 8 (n / 256)]

/-- A signed 16-bit field, two's complement, low byte first (R111). -/
def bytesS16 (v : Int) : List Byte := bytes16 (v % 65536).toNat

/-- A signed 8-bit field, two's complement (R111). -/
def byteS8 (v : Int) : Byte := BitVec.ofNat 8 (v % 256).toNat

/-- The flags byte of an INIT: bit 0 flip, bit 1 invert, bit 2 strobed (R112). -/
def initFlags (flip invert strobed : Bool) : Byte :=
  BitVec.ofNat 8 (flip.toNat + 2 * invert.toNat + 4 * strobed.toNat)

/-- `0xB0 | low8(page)` (R119). -/
def pageSelectByte (page : Int) : Byte := 0xB0 ||| BitVec.ofNat 8 (page % 256).toNat

/-- `0x00 | nibble` (R120). -/
def columnLowByte (nibble : BitVec 4) : Byte := 0x00 ||| nibble.setWidth 8

/-- `0x10 | nibble` (R121). -/
def columnHighByte (nibble : BitVec 4) : Byte := 0x10 ||| nibble.setWidth 8

/-- `0x40 | line` (R124). -/
def startLineByte (line : BitVec 6) : Byte := 0x40 ||| line.setWidth 8

/-- The bytes of an instruction in its encoding. -/
def encode : Instr → List Byte
  | .init channel address flip invert strobed dcLine resetLine =>
    [0x01, initFlags flip invert strobed, BitVec.ofNat 8 channel, BitVec.ofNat 8 address]
      ++ bytes16 dcLine ++ bytes16 resetLine
  | .shutdown => [0x02]
  | .fill pattern => [0x03, pattern]
  | .setPixel x y color => [0x04] ++ bytesS16 x ++ bytesS16 y ++ [color]
  | .writeString col row text large =>
    [0x05, BitVec.ofNat 8 large.toNat, byteS8 col, byteS8 row, BitVec.ofNat 8 text.length] ++ text
  | .setContrast level => [0x06, level]
  | .setCursor column page => [0x80] ++ bytesS16 column ++ bytesS16 page
  | .writeCommand bytes => [0x81, BitVec.ofNat 8 (bytes.length - 1)] ++ bytes
  | .writeData bytes => [0x82, BitVec.ofNat 8 (bytes.length - 1)] ++ bytes
  | .xform8 => [0x83]
  | .xform16 => [0x84]
  | .displayOff => [0xAE]
  | .setContrastCmd level => [0x81, level]
  | .pageSelect page => [pageSelectByte page]
  | .columnLow nibble => [columnLowByte nibble]
  | .columnHigh nibble => [columnHighByte nibble]
  | .invertDisplay => [0xA7]
  | .remapA0 => [0xA0]
  | .remapC0 => [0xC0]
  | .setMultiplex ratio => [0xA8, ratio]
  | .setDisplayOffset offset => [0xD3, offset]
  | .setStartLine line => [startLineByte line]
  | .segmentRemapA1 => [0xA1]
  | .comScanRemapped => [0xC8]
  | .setComPins config => [0xDA, config]
  | .displayFollowRam => [0xA4]
  | .normalDisplay => [0xA6]
  | .setClockDiv divider => [0xD5, divider]
  | .chargePump setting => [0x8D, setting]
  | .displayOn => [0xAF]
  | .setAddressingMode mode => [0x20, mode]

/-! ## The opcode table -/

/-- One row of spec/opcode_table.json: which first bytes are the row's (`op &&& mask = value`). -/
structure OpcodeRow where
  mnemonic : String
  port : Port
  mask : Byte
  value : Byte
deriving DecidableEq, Repr

/-- The row of an instruction. -/
def Instr.row : Instr → OpcodeRow
  | .init .. => ⟨"INIT", .host, 0xFF, 0x01⟩
  | .shutdown => ⟨"SHUTDOWN", .host, 0xFF, 0x02⟩
  | .fill .. => ⟨"FILL", .host, 0xFF, 0x03⟩
  | .setPixel .. => ⟨"SET_PIXEL", .host, 0xFF, 0x04⟩
  | .writeString .. => ⟨"WRITE_STRING", .host, 0xFF, 0x05⟩
  | .setContrast .. => ⟨"SET_CONTRAST", .host, 0xFF, 0x06⟩
  | .setCursor .. => ⟨"SET_CURSOR", .sequencer, 0xFF, 0x80⟩
  | .writeCommand .. => ⟨"WRITE_COMMAND", .sequencer, 0xFF, 0x81⟩
  | .writeData .. => ⟨"WRITE_DATA", .sequencer, 0xFF, 0x82⟩
  | .xform8 => ⟨"XFORM8", .sequencer, 0xFF, 0x83⟩
  | .xform16 => ⟨"XFORM16", .sequencer, 0xFF, 0x84⟩
  | .displayOff => ⟨"DISPLAY_OFF", .controller, 0xFF, 0xAE⟩
  | .setContrastCmd .. => ⟨"SET_CONTRAST_CMD", .controller, 0xFF, 0x81⟩
  | .pageSelect .. => ⟨"PAGE_SELECT", .controller, 0xF8, 0xB0⟩
  | .columnLow .. => ⟨"COLUMN_LOW", .controller, 0xF0, 0x00⟩
  | .columnHigh .. => ⟨"COLUMN_HIGH", .controller, 0xF0, 0x10⟩
  | .invertDisplay => ⟨"INVERT_DISPLAY", .controller, 0xFF, 0xA7⟩
  | .remapA0 => ⟨"REMAP_A0", .controller, 0xFF, 0xA0⟩
  | .remapC0 => ⟨"REMAP_C0", .controller, 0xFF, 0xC0⟩
  | .setMultiplex .. => ⟨"SET_MULTIPLEX", .controller, 0xFF, 0xA8⟩
  | .setDisplayOffset .. => ⟨"SET_DISPLAY_OFFSET", .controller, 0xFF, 0xD3⟩
  | .setStartLine .. => ⟨"SET_START_LINE", .controller, 0xC0, 0x40⟩
  | .segmentRemapA1 => ⟨"SEGMENT_REMAP_A1", .controller, 0xFF, 0xA1⟩
  | .comScanRemapped => ⟨"COM_SCAN_REMAPPED", .controller, 0xFF, 0xC8⟩
  | .setComPins .. => ⟨"SET_COM_PINS", .controller, 0xFF, 0xDA⟩
  | .displayFollowRam => ⟨"DISPLAY_FOLLOW_RAM", .controller, 0xFF, 0xA4⟩
  | .normalDisplay => ⟨"NORMAL_DISPLAY", .controller, 0xFF, 0xA6⟩
  | .setClockDiv .. => ⟨"SET_CLOCK_DIV", .controller, 0xFF, 0xD5⟩
  | .chargePump .. => ⟨"CHARGE_PUMP", .controller, 0xFF, 0x8D⟩
  | .displayOn => ⟨"DISPLAY_ON", .controller, 0xFF, 0xAF⟩
  | .setAddressingMode .. => ⟨"SET_ADDRESSING_MODE", .controller, 0xFF, 0x20⟩

/-- The longest serialized instruction: a WRITE_STRING of 255 characters (R116), a WRITE_DATA of 256 bytes. -/
def longestInstr : Nat := 260

/-- The bytes of a table word: byte k is bits 8k+7 to 8k; after the table's bits come zero bytes. -/
def tableBytes (nbits w : Nat) : List Byte :=
  ((List.range ((nbits + 7) / 8)).map fun k => BitVec.ofNat 8 (w >>> (8 * k))) ++ List.replicate longestInstr 0

/-- The port a table word is given to. The three encodings share first bytes, and a word does not say which is
meant (log 10): host requests first, then the micro-operation codes, then the controller commands; `81` is the
contrast command where the table gives it its second byte and WRITE_COMMAND where it gives one byte. -/
def tablePort (nbits w : Nat) : Port :=
  let op := w % 256
  if 0x01 ≤ op ∧ op ≤ 0x06 then .host
  else if op = 0x81 then (if 16 ≤ nbits then .controller else .sequencer)
  else if 0x80 ≤ op ∧ op ≤ 0x84 then .sequencer
  else .controller

/-- The instruction the decoder reads from a table word, none where it refuses. -/
def decodeTableWord (nbits w : Nat) : Option Instr :=
  match decode (tablePort nbits w) (tableBytes nbits w) with
  | .instr i _ => some i
  | .reject _ => none

/-! ## Assembler syntax (R134) -/

/-- The pseudo-instruction CLEAR: `FILL 0x00`. -/
def asmClear : Instr := .fill 0x00

/-- The pseudo-instruction CLRPIX x, y: `SETPIX x, y, 0`. -/
def asmClrPix (x y : Int) : Instr := .setPixel x y 0x00

/-- One character of a text literal: printable ASCII stands for itself, any other byte is `\xHH`; so are the
quote and the backslash, which a literal could not hold otherwise. -/
def asmChar (b : Byte) : String :=
  if 0x20 ≤ b.toNat ∧ b.toNat < 0x7F ∧ b ≠ 0x22 ∧ b ≠ 0x5C then String.singleton (Char.ofNat b.toNat)
  else "\\x" ++ String.ofList [Nat.digitChar (b.toNat / 16), Nat.digitChar (b.toNat % 16)]

/-- A Boolean operand: 0 or 1. -/
def asmBit (b : Bool) : String := toString b.toNat

/-- A host request in the assembler syntax; none for an instruction that is no host request. -/
def asmOf : Instr → Option String
  | .init channel address flip invert strobed dcLine resetLine =>
    some ("INIT ch=" ++ toString channel ++ ", addr=" ++ toString address ++ ", flip=" ++ asmBit flip
      ++ ", invert=" ++ asmBit invert ++ ", strobed=" ++ asmBit strobed ++ ", dc=" ++ toString dcLine
      ++ ", rst=" ++ toString resetLine)
  | .shutdown => some "SHUTDOWN"
  | .fill pattern => some ("FILL " ++ toString pattern.toNat)
  | .setPixel x y color =>
    some ("SETPIX " ++ toString x ++ ", " ++ toString y ++ ", " ++ toString color.toNat)
  | .writeString col row text large =>
    some ("WRSTR " ++ toString col ++ ", " ++ toString row ++ ", \"" ++ String.join (text.map asmChar)
      ++ "\", " ++ (if large then "large" else "small"))
  | .setContrast level => some ("CONTRAST " ++ toString level.toNat)
  | .setCursor .. | .writeCommand .. | .writeData .. | .xform8 | .xform16 | .displayOff | .setContrastCmd ..
  | .pageSelect .. | .columnLow .. | .columnHigh .. | .invertDisplay | .remapA0 | .remapC0 | .setMultiplex ..
  | .setDisplayOffset .. | .setStartLine .. | .segmentRemapA1 | .comScanRemapped | .setComPins ..
  | .displayFollowRam | .normalDisplay | .setClockDiv .. | .chargePump .. | .displayOn
  | .setAddressingMode .. => none

end Sys2Proof
end

