-- ==== Sys2Proof/Machine/Operands.lean ====
section
/-! DEFINITION. The operand forms: the fixed geometry (spec 00_scope R12), the integer primitives (R15), the command
bytes of a position (30_encoding R119 to R121), the pixel and cell arithmetic (42_drawing R232 to R241). -/
namespace Sys2Proof.Machine

/-! ## Geometry (R12) -/

/-- `W`, display width in columns. -/
def displayWidth : Nat := 128
/-- `H`, display height in pixel rows. -/
def displayHeight : Nat := 64
/-- `PAGES`. -/
def pageCount : Nat := 8
/-- `SHADOW_SIZE`. -/
def shadowSize : Nat := 1024
/-- `NGLYPH8 · GLYPH8_BYTES`: the size of FONT8. -/
def font8Size : Nat := 2048
/-- `NGLYPH16 · GLYPH16_BYTES`: the size of FONT16. -/
def font16Size : Nat := 8192

/-! ## Integer primitives (R15) -/

/-- `div8(v) = floor(v / 8)`. -/
def div8 (v : Int) : Int := v / 8
/-- `mod8(v)`, in 0..7. -/
def mod8 (v : Int) : Nat := (v % 8).toNat
/-- `lo4(v) = v mod 16`, a nibble. -/
def lo4 (v : Int) : BitVec 4 := BitVec.ofNat 4 (v % 16).toNat
/-- `hi4(v) = floor(v / 16) mod 16`, a nibble. -/
def hi4 (v : Int) : BitVec 4 := BitVec.ofNat 4 (v / 16 % 16).toNat

/-! ## The command bytes of a position (R119 to R121) -/

/-- `PAGE_CMD(p) = 0xB0 | low8(p)`. -/
def pageCmd (page : Int) : Byte := pageSelectByte page
/-- `COLLO_CMD(c) = 0x00 | lo4(c)`. -/
def colLoCmd (column : Int) : Byte := columnLowByte (lo4 column)
/-- `COLHI_CMD(c) = 0x10 | hi4(c)`. -/
def colHiCmd (column : Int) : Byte := columnHighByte (hi4 column)

/-! ## The shadow index (R37, R70, R71, R232) -/

/-- The cursor of a position: `page · 128 + column` (R37, R166). -/
def cursorOf (column page : Int) : Int := page * displayWidth + column
/-- The shadow index of a pixel: `div8(y) · 128 + x` (R232). -/
def pixelIndex (x y : Int) : Int := cursorOf x (div8 y)

/-- `PIX_OK(x, y, i)` (R233, R234). -/
def pixOk (mode : PixelBoundsMode) (x y : Int) : Bool :=
  match mode with
  | .index => decide (0 ≤ pixelIndex x y) && decide (pixelIndex x y ≤ 1023)
  | .coordinate => decide (0 ≤ x) && decide (x ≤ 127) && decide (0 ≤ y) && decide (y ≤ 63)

/-- The bit mask of a pixel row: `1 << mod8(y)` (R235). -/
def pixelMask (y : Int) : Byte := 1#8 <<< mod8 y

/-- The new byte of SET_PIXEL (R235): the bit set for a nonzero color, cleared for zero. -/
def pixelByte (old : Byte) (y : Int) (color : Byte) : Byte :=
  if color ≠ 0 then old ||| pixelMask y else old &&& ~~~(pixelMask y)

/-! ## Character cells (R239 to R242) -/

/-- `N`, the cells per row: 16 for the small font, 8 for the large (R240). -/
def cellsPerRow (large : Bool) : Int := if large then 8 else 16

/-- `L = min(len(text), N - col)` (R240). -/
def fitLength (col : Int) (text : List Byte) (large : Bool) : Int :=
  min (text.length : Int) (cellsPerRow large - col)

/-- Whether WRITE_STRING's cell is one its contract does not name: col < 0, row < 0 or row > 7 (R243). -/
def badCell (col row : Int) : Bool := decide (col < 0) || decide (row < 0) || decide (7 < row)

end Sys2Proof.Machine
end

