-- ==== Sys2Proof/Machine/Ops.lean ====
section
/-! DEFINITION. The named operations over memory, registers and the transport port that the meanings share: memory
primitives (spec 00_scope R17), port primitives (R18, R20), returning (R19), raising a model fault (60_exceptions
R276), framing (30_encoding R125, R126), WRITE_COMMAND, SET_CURSOR and WRITE_DATA (40_session R160, R166, R170), and
taking the next request from the host's list (10_state R31). -/
namespace Sys2Proof.Machine

/-! ## Byte memories -/

/-- The byte a list of cells gives an index, if it lists it. -/
def cellAt : List Host.Cell → Nat → Option Byte
  | [], _ => none
  | (k, v) :: t, a => if k = a then some v else cellAt t a

/-- The cells with index `a` holding `b`, in rising order. -/
def insertCell : List Host.Cell → Nat → Byte → List Host.Cell
  | [], a, b => [(a, b)]
  | (k, v) :: t, a, b =>
    if a < k then (a, b) :: (k, v) :: t
    else if a = k then (a, b) :: t
    else (k, v) :: insertCell t a b

/-- The cells without index `a`. -/
def eraseCell : List Host.Cell → Nat → List Host.Cell
  | [], _ => []
  | (k, v) :: t, a => if k = a then eraseCell t a else (k, v) :: eraseCell t a

/-- The byte an index held at reset: what an unlisted index reads as. -/
def Memory.base (m : Memory) (a : Nat) : Byte := (cellAt m.init a).getD 0

/-- The byte at an index. -/
def Memory.read (m : Memory) (a : Nat) : Byte := (cellAt m.cells a).getD (m.base a)

/-- The memory with one byte written; the canonical form is kept. -/
def Memory.write (m : Memory) (a : Nat) (b : Byte) : Memory :=
  { m with cells := if b = m.base a then eraseCell m.cells a else insertCell m.cells a b }

/-- `n` bytes from index `a` on. -/
def Memory.readBytes (m : Memory) (a n : Nat) : List Byte := (List.range n).map fun k => m.read (a + k)

/-- The memory with bytes written from index `a` on. -/
def Memory.writeBytes (m : Memory) (a : Nat) : List Byte → Memory
  | [] => m
  | b :: t => (m.write a b).writeBytes (a + 1) t

/-- The cells for `n` indices from `k` on that hold `f`, followed by the cells `rest`. -/
def tabulateCells (base f : Nat → Byte) (rest : List Host.Cell) : Nat → Nat → List Host.Cell
  | 0, _ => rest
  | n + 1, k =>
    if f k = base k then tabulateCells base f rest n (k + 1)
    else (k, f k) :: tabulateCells base f rest n (k + 1)

/-- The memory with every index below `n` rewritten to `f`, read whole before any byte is rewritten (R207). -/
def Memory.rewrite (m : Memory) (n : Nat) (f : Nat → Byte) : Memory :=
  { m with cells := tabulateCells m.base f (m.cells.filter fun c => decide (n ≤ c.1)) n 0 }

/-- The canonical form of a memory of `size` bytes: indices strictly rising and below `size`, no cell equal to what
its index reads as unlisted. -/
def Memory.wf (size : Nat) (m : Memory) : Bool :=
  decide (m.cells.Pairwise fun c d => c.1 < d.1) &&
    m.cells.all fun c => decide (c.1 < size) && decide (c.2 ≠ m.base c.1)

/-! ## Ending a request (R19, R276, R31) -/

/-- Return from the request with a response (none: no code): the index of the next request advances by one (R31). -/
def State.ret (s : State) (code : Option Code) : State :=
  { s with responses := s.responses ++ [code], next := s.next + 1 }

/-- `raise` (R276): FAULT takes the record; everything done so far stands, and the index does not advance (R31). -/
def State.raise (s : State) (cause : FaultCause) (request : Payload) : State :=
  { s with fault := some ⟨cause, request⟩ }

/-- How far an operation inside a request came: to its end, or to a `raise` at this state. -/
inductive Flow where
  | go (s : State)
  | raised (cause : FaultCause) (s : State)
deriving DecidableEq, Repr

/-- Go on with the next operation, unless a fault was raised. -/
def Flow.andThen : Flow → (State → Flow) → Flow
  | .go s, k => k s
  | .raised cause s, _ => .raised cause s

/-- The end of a request: return with a response, or the raised fault with the request being processed. -/
def Flow.finish (x : Flow) (i : Instr) (code : Option Code) : State :=
  match x with
  | .go s => s.ret code
  | .raised cause s => s.raise cause (.record i)

/-! ## The transport port (R18, R20) -/

/-- `Emit(e)`: the event is appended to TRACE. -/
def State.emit (s : State) (e : Event) : State := { s with trace := s.trace ++ [e] }

/-- The answer the transport environment gives next: the next one in State, else a free value (log 4). -/
def State.answer (s : State) : Answer :=
  match s.answers with
  | a :: _ => a
  | [] => Config.freeAnswer s.drawCount

/-- The state after an answer was drawn. -/
def State.drawn (s : State) : State :=
  { s with answers := s.answers.tail, drawCount := s.drawCount + 1 }

/-- The state after `Call(e)`: the event emitted, its answer (`s.answer`) drawn. -/
def State.called (s : State) (e : Event) : State := (s.emit e).drawn

/-- What follows a call whose answer matters (R20, R93): on an error INIT returns 1 (R151), else it goes on with the
value of the answer. -/
def State.callOrFail (s : State) (e : Event) (k : Nat → State → State) : State :=
  match s.answer with
  | .error => (s.called e).ret (some .one)
  | .ok v => k v (s.called e)

/-- The wire image of a write event (R127): on the addressed wire the control byte comes first. -/
def Event.wire : Event → Option (List Byte)
  | .writeAddressed _ ctrl bytes => some (ctrl :: bytes)
  | .writeStrobed _ bytes => some bytes
  | .hwInit | .hwShutdown | .openAddressed .. | .openStrobed .. | .closeAddressed .. | .closeStrobed ..
  | .gpioRegister .. | .gpioWrite .. | .delay .. => none

/-! ## Framing and the sequencer's operations -/

/-- The events of one transfer, with the control byte and the select-line level that mark it (R125, R126). -/
def State.transferEvents (s : State) (ctrl : Byte) (level : Bool) (bytes : List Byte) : List Event :=
  match s.kind with
  | .addressed => [.writeAddressed s.handle ctrl bytes]
  | .strobed => [.gpioWrite s.dcLine level, .writeStrobed s.handle bytes]

/-- The events of a command transfer (R125). -/
def State.commandEvents (s : State) (bytes : List Byte) : List Event :=
  s.transferEvents s.params.ctrlCmd s.params.dcCmdLevel bytes

/-- The events of a data transfer (R126). -/
def State.dataEvents (s : State) (bytes : List Byte) : List Event :=
  s.transferEvents s.params.ctrlData s.params.dcDataLevel bytes

/-- One transfer: its events, of which the write is a call whose answer is drawn and ignored (R93). -/
def State.transfer (s : State) (ctrl : Byte) (level : Bool) (bytes : List Byte) : State :=
  match s.kind with
  | .addressed => s.called (.writeAddressed s.handle ctrl bytes)
  | .strobed => (s.emit (.gpioWrite s.dcLine level)).called (.writeStrobed s.handle bytes)

/-- WRITE_COMMAND (R160). -/
def State.writeCommand (s : State) (bytes : List Byte) : State :=
  s.transfer s.params.ctrlCmd s.params.dcCmdLevel bytes

/-- SET_CURSOR (R166): three one-byte command transfers, then the cursor. -/
def State.setCursor (s : State) (column page : Int) : State :=
  let s := ((s.writeCommand [pageCmd page]).writeCommand [colLoCmd column]).writeCommand [colHiCmd column]
  { s with cursor := cursorOf column page }

/-- Whether `len` bytes from `start` on lie in the shadow (R17, R171). -/
def shadowInRange (start : Int) (len : Nat) : Bool := decide (0 ≤ start) && decide (start + len ≤ shadowSize)

/-- `MemRead(SHADOW, start, len)` (R17): the bytes, or none where it raises `ShadowRange(start, len)`. -/
def State.readShadow (s : State) (start : Int) (len : Nat) : Option (List Byte) :=
  if shadowInRange start len then some (s.shadow.readBytes start.toNat len) else none

/-- WRITE_DATA (R170 to R172): the range check, the data transfer, the shadow copy and the cursor's advance. -/
def State.writeData (s : State) (bytes : List Byte) : Flow :=
  if shadowInRange s.cursor bytes.length then
    let t := s.transfer s.params.ctrlData s.params.dcDataLevel bytes
    .go { t with shadow := s.shadow.writeBytes s.cursor.toNat bytes, cursor := s.cursor + bytes.length }
  else .raised (.shadowRange s.cursor bytes.length) s

/-! ## Taking the next request (R31, R276, R277, R283) -/

/-- What the host's list holds at the index of the next request. -/
inductive Fetched where
  /-- Nothing: the block waits (R301). -/
  | idle
  /-- An entry issued before the previous request had returned (R283). -/
  | overlapping
  /-- Bytes that are no host request (R129, R277). -/
  | illegal (op : Option Byte) (request : Payload)
  /-- Bytes that are no instruction of the sequencer's or the controller's encoding (log 7). -/
  | unassigned (port : Port) (op : Option Byte)
  /-- An instruction. -/
  | run (i : Instr)
deriving DecidableEq, Repr

/-- Decoding of one entry. An abstract record is an instruction as it stands (R277); bytes after a request's length are
no part of it (R130; log 13). -/
def fetchPayload : Payload → Fetched
  | .record i => .run i
  | .bytes port content =>
    match decode port content with
    | .instr i _ => .run i
    | .reject r =>
      match port with
      | .host => .illegal r.op (.bytes .host content)
      | .sequencer => .unassigned .sequencer r.op
      | .controller => .unassigned .controller r.op

/-- The next request of the host's list. -/
def State.fetch (s : State) : Fetched :=
  match s.program[s.next]? with
  | none => .idle
  | some entry => if entry.overlapping then .overlapping else fetchPayload entry.payload

/-- A list with the element at an index put in place; past its end the list is filled up with the same element. -/
def putAt {α : Type} : List α → Nat → α → List α
  | [], 0, a => [a]
  | [], n + 1, a => a :: putAt [] n a
  | _ :: t, 0, a => a :: t
  | x :: t, n + 1, a => x :: putAt t n a

end Sys2Proof.Machine
end

