-- ==== Sys2Proof/Machine/Commands.lean ====
section
/-! DEFINITION. The commands of the controller byte stream (spec 30_encoding R118 to R124). What the block does with a
command is to send it as one command transfer (R122, R123, R125); what the controller does with it is outside the spec
(00_scope R8). The commands of the initialization sequence are sent by the block only inside `INIT_SEQ` (R124); run on
their own they are command transfers too (log 9). None has a response. -/
namespace Sys2Proof.Machine

/-- One command sent to the controller (R125). -/
def sendCommand (bytes : List Byte) (s : State) : Host.Outcome State Fault Refusal :=
  .next ((s.writeCommand bytes).ret none)

/-- R123: `[AE]`. -/
def execDisplayOff (s : State) : Host.Outcome State Fault Refusal := sendCommand [0xAE] s

/-- R122: `[81, level]`, one transfer. -/
def execSetContrastCmd (level : Byte) (s : State) : Host.Outcome State Fault Refusal := sendCommand [0x81, level] s

/-- R119: `[B0 | low8(page)]`. -/
def execPageSelect (page : Int) (s : State) : Host.Outcome State Fault Refusal := sendCommand [pageCmd page] s

/-- R120: `[00 | nibble]`. -/
def execColumnLow (nibble : BitVec 4) (s : State) : Host.Outcome State Fault Refusal := sendCommand [columnLowByte nibble] s

/-- R121: `[10 | nibble]`. -/
def execColumnHigh (nibble : BitVec 4) (s : State) : Host.Outcome State Fault Refusal := sendCommand [columnHighByte nibble] s

/-- R123: `[A7]`. -/
def execInvertDisplay (s : State) : Host.Outcome State Fault Refusal := sendCommand [0xA7] s

/-- R123: `[A0]`. -/
def execRemapA0 (s : State) : Host.Outcome State Fault Refusal := sendCommand [0xA0] s

/-- R123: `[C0]`. -/
def execRemapC0 (s : State) : Host.Outcome State Fault Refusal := sendCommand [0xC0] s

/-- R124: `[A8, ratio]`. -/
def execSetMultiplex (ratio : Byte) (s : State) : Host.Outcome State Fault Refusal := sendCommand [0xA8, ratio] s

/-- R124: `[D3, offset]`. -/
def execSetDisplayOffset (offset : Byte) (s : State) : Host.Outcome State Fault Refusal := sendCommand [0xD3, offset] s

/-- R124: `[40 | line]`. -/
def execSetStartLine (line : BitVec 6) (s : State) : Host.Outcome State Fault Refusal := sendCommand [startLineByte line] s

/-- R124: `[A1]`. -/
def execSegmentRemapA1 (s : State) : Host.Outcome State Fault Refusal := sendCommand [0xA1] s

/-- R124: `[C8]`. -/
def execComScanRemapped (s : State) : Host.Outcome State Fault Refusal := sendCommand [0xC8] s

/-- R124: `[DA, config]`. -/
def execSetComPins (config : Byte) (s : State) : Host.Outcome State Fault Refusal := sendCommand [0xDA, config] s

/-- R124: `[A4]`. -/
def execDisplayFollowRam (s : State) : Host.Outcome State Fault Refusal := sendCommand [0xA4] s

/-- R124: `[A6]`. -/
def execNormalDisplay (s : State) : Host.Outcome State Fault Refusal := sendCommand [0xA6] s

/-- R124: `[D5, divider]`. -/
def execSetClockDiv (divider : Byte) (s : State) : Host.Outcome State Fault Refusal := sendCommand [0xD5, divider] s

/-- R124: `[8D, setting]`. -/
def execChargePump (setting : Byte) (s : State) : Host.Outcome State Fault Refusal := sendCommand [0x8D, setting] s

/-- R124: `[AF]`. -/
def execDisplayOn (s : State) : Host.Outcome State Fault Refusal := sendCommand [0xAF] s

/-- R124: `[20, mode]`. -/
def execSetAddressingMode (mode : Byte) (s : State) : Host.Outcome State Fault Refusal := sendCommand [0x20, mode] s

end Sys2Proof.Machine
end

