-- ==== Sys2Proof/Machine/Font.lean ====
section
/-! DEFINITION. The Font Orientation Transform (spec 41_font_transform): ROT8, ROT16, the micro-operations XFORM8 and
XFORM16, and XFORM as INIT runs it. -/
namespace Sys2Proof.Machine

/-- The byte whose bit k is `f k`, for k in 0..7. -/
def byteOfBits (f : Nat → Bool) : Byte :=
  BitVec.ofNat 8 ((f 0).toNat + 2 * (f 1).toNat + 4 * (f 2).toNat + 8 * (f 3).toNat + 16 * (f 4).toNat
    + 32 * (f 5).toNat + 64 * (f 6).toNat + 128 * (f 7).toNat)

/-- Output byte `k` of ROT8 (R201): `o[7 - b][r] = g[r][b]`, that is `o[k][r] = g[r][7 - k]`; `g r` is input byte r. -/
def rot8Byte (g : Nat → Byte) (k : Nat) : Byte := byteOfBits fun r => (g r).getLsbD (7 - k)

/-- ROT8 of an 8-byte glyph (R201). -/
def rot8 (g : List Byte) : List Byte := (List.range 8).map (rot8Byte fun r => g.getD r 0)

/-- Output byte `k` of ROT16 (R204, R206): bytes 0 to 7 are the rotation of the even input bytes, bytes 8 to 15 of the
odd ones. -/
def rot16Byte (t : Nat → Byte) (k : Nat) : Byte :=
  if k < 8 then rot8Byte (fun r => t (2 * r)) k else rot8Byte (fun r => t (2 * r + 1)) (k - 8)

/-- ROT16 of a 16-byte strip (R204). -/
def rot16 (t : List Byte) : List Byte := (List.range 16).map (rot16Byte fun r => t.getD r 0)

/-- The source's loop for one output bit-plane (R202): for each input row, shift right, then set bit 7 if the row's
bit is set. -/
def rot8Plane (b : Nat) : List Byte → Byte → Byte
  | [], acc => acc
  | row :: rows, acc => rot8Plane b rows (if row.getLsbD b then (acc >>> 1) ||| 0x80 else acc >>> 1)

/-- ROT8 as the source describes its loop (R202): output byte k is plane 7 - k. -/
def rot8Loop (g : List Byte) : List Byte := (List.range 8).map fun k => rot8Plane (7 - k) g 0

/-- FONT8 after XFORM8 (R201): byte k of glyph c is byte k of ROT8 of the glyph. -/
def rotateFont8 (m : Memory) : Memory :=
  m.rewrite font8Size fun a => rot8Byte (fun r => m.read (8 * (a / 8) + r)) (a % 8)

/-- FONT16 after XFORM16 (R204): byte k of a strip is byte k of ROT16 of the strip. -/
def rotateFont16 (m : Memory) : Memory :=
  m.rewrite font16Size fun a => rot16Byte (fun r => m.read (16 * (a / 16) + r)) (a % 16)

/-- XFORM8 on the state (R201): no event. -/
def State.xform8 (s : State) : State := { s with font8 := rotateFont8 s.font8 }

/-- XFORM16 on the state (R204): no event. -/
def State.xform16 (s : State) : State := { s with font16 := rotateFont16 s.font16 }

/-- XFORM (R200): skipped in the guarded variant once it has been applied. -/
def State.xform (s : State) : State :=
  if s.params.xformOnce && decide (0 < s.xformCount) then s
  else { s.xform8.xform16 with xformCount := s.xformCount + 1 }

/-- Glyph `c` of FONT8 (20_memory R74). -/
def State.glyph8 (s : State) (c : Byte) : List Byte := s.font8.readBytes (8 * c.toNat) 8

/-- Strip `k` of glyph `c` of FONT16 (20_memory R75, R205). -/
def State.strip16 (s : State) (c : Byte) (k : Nat) : List Byte := s.font16.readBytes (64 * c.toNat + 16 * k) 16

/-- XFORM8 (R201), a micro-operation: no response. -/
def execXform8 (s : State) : Host.Outcome State Fault Refusal := .next (s.xform8.ret none)

/-- XFORM16 (R204), a micro-operation: no response. -/
def execXform16 (s : State) : Host.Outcome State Fault Refusal := .next (s.xform16.ret none)

end Sys2Proof.Machine
end

