-- ==== Sys2Proof/Machine/Drawing.lean ====
section
/-! DEFINITION. The host requests of the Drawing Surface (spec 42_drawing): FILL, SET_PIXEL, WRITE_STRING. -/
namespace Sys2Proof.Machine

/-- FILL's loop over pages (R230): position at column 0, then 128 bytes of the pattern. -/
def fillPages (pattern : Byte) : List Nat → State → Flow
  | [], s => .go s
  | page :: pages, s =>
    ((s.setCursor 0 page).writeData (List.replicate displayWidth pattern)).andThen (fillPages pattern pages)

/-- FILL (R230, R231): all 8 pages, no diffing; -1 unless Active (R272). -/
def execFill (pattern : Byte) (s : State) : Host.Outcome State Fault Refusal :=
  .next <|
    if s.session = .active then
      (fillPages pattern (List.range pageCount) s).finish (.fill pattern) (some .zero)
    else s.ret (some .minusOne)

/-- SET_PIXEL's write of a byte that changes (R236): position, then one data byte. -/
def State.putPixel (s : State) (x y : Int) (new : Byte) : Flow := (s.setCursor x (div8 y)).writeData [new]

/-- SET_PIXEL on an accepted pixel (R236): nothing at all if the byte does not change. -/
def State.drawPixel (s : State) (x y : Int) (color : Byte) : Flow :=
  match s.readShadow (pixelIndex x y) 1 with
  | none => .raised (.shadowRange (pixelIndex x y) 1) s
  | some bytes =>
    let old := bytes.headD 0
    if pixelByte old y color = old then .go s else s.putPixel x y (pixelByte old y color)

/-- SET_PIXEL (R232 to R238): -1 unless Active, then -1 unless `PIX_OK` (R284). -/
def execSetPixel (x y : Int) (color : Byte) (s : State) : Host.Outcome State Fault Refusal :=
  .next <|
    if s.session = .active then
      if pixOk s.params.pixelBounds x y then (s.drawPixel x y color).finish (.setPixel x y color) (some .zero)
      else s.ret (some .minusOne)
    else s.ret (some .minusOne)

/-- The small-font glyphs, written contiguously (R241). -/
def drawSmall : List Byte → State → Flow
  | [], s => .go s
  | c :: text, s => (s.writeData (s.glyph8 c)).andThen (drawSmall text)

/-- Strip `k` of one large character at a cell (R242). -/
def drawStrip (c : Byte) (cell row : Int) (k : Nat) (s : State) : Flow :=
  (s.setCursor (cell * 16) (row + k)).writeData (s.strip16 c k)

/-- One large character (R242): strips 0, 1 and 2; a code of 128 or more has no glyph (R243). -/
def drawLargeGlyph (c : Byte) (cell row : Int) (s : State) : Flow :=
  if 128 ≤ c.toNat then .raised (.glyphRange c) s
  else ((drawStrip c cell row 0 s).andThen (drawStrip c cell row 1)).andThen (drawStrip c cell row 2)

/-- The large-font characters, in text order, from a cell on (R242). -/
def drawLarge (row : Int) : List Byte → Int → State → Flow
  | [], _, s => .go s
  | c :: text, cell, s => (drawLargeGlyph c cell row s).andThen (drawLarge row text (cell + 1))

/-- WRITE_STRING once its arguments fit (R241, R242): the characters that fit. -/
def State.drawText (s : State) (col row : Int) (text : List Byte) (large : Bool) : Flow :=
  if large then drawLarge row text col s else drawSmall text (s.setCursor (col * 8) row)

/-- WRITE_STRING (R239 to R244): the checks in the order of R284. -/
def execWriteString (col row : Int) (text : List Byte) (large : Bool) (s : State) :
    Host.Outcome State Fault Refusal :=
  .next <|
    if s.session = .active then
      if badCell col row then s.raise (.badArgument col row) (.record (.writeString col row text large))
      else if fitLength col text large ≤ 0 then s.ret (some .minusOne)
      else (s.drawText col row (text.take (fitLength col text large).toNat) large).finish
        (.writeString col row text large) (some .zero)
    else s.ret (some .minusOne)

end Sys2Proof.Machine
end

