-- ==== Sys2Proof/Machine/Sequencer.lean ====
section
/-! DEFINITION. The micro-operations of the sequencer (spec 40_session R160 to R172, 30_encoding R128), each run on its
own; the host requests run the same operations inside (log 7). None has a response. -/
namespace Sys2Proof.Machine

/-- SET_CURSOR (R166, R167): no range check, no fault. -/
def execSetCursor (column page : Int) (s : State) : Host.Outcome State Fault Refusal :=
  .next ((s.setCursor column page).ret none)

/-- WRITE_COMMAND (R160 to R162): one transfer whatever the length. -/
def execWriteCommand (bytes : List Byte) (s : State) : Host.Outcome State Fault Refusal :=
  .next ((s.writeCommand bytes).ret none)

/-- WRITE_DATA (R170 to R172): `ShadowRange` where the bytes would leave the shadow. -/
def execWriteData (bytes : List Byte) (s : State) : Host.Outcome State Fault Refusal :=
  .next ((s.writeData bytes).finish (.writeData bytes) none)

end Sys2Proof.Machine
end

