-- ==== Sys2Proof/Machine/Session.lean ====
section
/-! DEFINITION. The host requests of the Controller Session (spec 40_session): INIT, SHUTDOWN, SET_CONTRAST. -/
namespace Sys2Proof.Machine

/-- The open call of INIT (R150, 20_memory R86). -/
def State.openEvent (s : State) (channel address : Nat) (strobed : Bool) : Event :=
  if strobed then .openStrobed channel s.params.strobedClockHz else .openAddressed channel address

/-- RESET_PULSE(line) (R153): low, hold, release to level 1. -/
def State.resetPulse (s : State) (line : Nat) : State :=
  ((s.emit (.gpioWrite line false)).emit (.delay s.params.resetHoldMs)).emit (.gpioWrite line true)

/-- The registers INIT commits after its last point of failure (R150, D15). -/
def State.commitSession (s : State) (handle : Nat) (strobed : Bool) (dcLine resetLine : Nat) : State :=
  if strobed then { s with kind := .strobed, handle := some handle, dcLine := dcLine, rstLine := resetLine }
  else { s with kind := .addressed, handle := some handle }

/-- INIT's optional commands (R154): invert first, then the flip pair. -/
def State.optionalCommands (s : State) (flip invert : Bool) : State :=
  let t := if invert then s.writeCommand [0xA7] else s
  if flip then (t.writeCommand [0xA0]).writeCommand [0xC0] else t

/-- INIT after its last point of failure (R150): the registers, `INIT_SEQ`, the transform, the optional commands. -/
def State.startSession (s : State) (handle : Nat) (flip invert strobed : Bool) (dcLine resetLine : Nat) : State :=
  let t := s.commitSession handle strobed dcLine resetLine
  let u := ((t.writeCommand s.params.initSeq).xform).optionalCommands flip invert
  ({ u with session := .active }).ret (some .zero)

/-- INIT from a session that is not Active (R150, R151). -/
def State.initialize (s : State) (channel address : Nat) (flip invert strobed : Bool) (dcLine resetLine : Nat) :
    State :=
  s.callOrFail .hwInit fun _ s =>
    s.callOrFail (s.openEvent channel address strobed) fun handle s =>
      if strobed then
        s.callOrFail (.gpioRegister dcLine) fun _ s =>
          s.callOrFail (.gpioRegister resetLine) fun _ s =>
            (s.resetPulse resetLine).startSession handle flip invert strobed dcLine resetLine
      else s.startSession handle flip invert strobed dcLine resetLine

/-- INIT (R150 to R155): while Active it raises `ReinitActive` before any event (R152, R281). -/
def execInit (channel address : Nat) (flip invert strobed : Bool) (dcLine resetLine : Nat) (s : State) :
    Host.Outcome State Fault Refusal :=
  .next <|
    if s.session = .active then
      s.raise .reinitActive (.record (.init channel address flip invert strobed dcLine resetLine))
    else s.initialize channel address flip invert strobed dcLine resetLine

/-- The close call of SHUTDOWN (R156, 20_memory R87). -/
def State.closeEvent (s : State) : Event :=
  match s.kind with
  | .addressed => .closeAddressed s.handle
  | .strobed => .closeStrobed s.handle

/-- SHUTDOWN from Active (R156): display-off, close, release; KIND and everything else is kept (R157). -/
def State.closeSession (s : State) : State :=
  let t := ((s.writeCommand [0xAE]).emit s.closeEvent).emit .hwShutdown
  { t with handle := none, session := .closed }

/-- SHUTDOWN (R156, R157): no code; a no-op unless Active. -/
def execShutdown (s : State) : Host.Outcome State Fault Refusal :=
  .next ((if s.session = .active then s.closeSession else s).ret none)

/-- SET_CONTRAST (R158, R159): one two-byte command transfer; -1 unless Active (R272). -/
def execSetContrast (level : Byte) (s : State) : Host.Outcome State Fault Refusal :=
  .next <|
    if s.session = .active then (s.writeCommand [0x81, level]).ret (some .zero) else s.ret (some .minusOne)

end Sys2Proof.Machine
end

