-- ==== Sys2Proof/Machine/Dispatch.lean ====
section
/-! DEFINITION. What each instruction does: one arm per constructor of Instr, each one call of its meaning. -/
namespace Sys2Proof.Machine

def exec (i : Instr) (s : State) : Host.Outcome State Fault Refusal :=
  match i with
  | .init channel address flip invert strobed dcLine resetLine => Sys2Proof.Machine.execInit channel address flip invert strobed dcLine resetLine s
  | .shutdown => Sys2Proof.Machine.execShutdown s
  | .fill pattern => Sys2Proof.Machine.execFill pattern s
  | .setPixel x y color => Sys2Proof.Machine.execSetPixel x y color s
  | .writeString col row text large => Sys2Proof.Machine.execWriteString col row text large s
  | .setContrast level => Sys2Proof.Machine.execSetContrast level s
  | .setCursor column page => Sys2Proof.Machine.execSetCursor column page s
  | .writeCommand bytes => Sys2Proof.Machine.execWriteCommand bytes s
  | .writeData bytes => Sys2Proof.Machine.execWriteData bytes s
  | .xform8 => Sys2Proof.Machine.execXform8 s
  | .xform16 => Sys2Proof.Machine.execXform16 s
  | .displayOff => Sys2Proof.Machine.execDisplayOff s
  | .setContrastCmd level => Sys2Proof.Machine.execSetContrastCmd level s
  | .pageSelect page => Sys2Proof.Machine.execPageSelect page s
  | .columnLow nibble => Sys2Proof.Machine.execColumnLow nibble s
  | .columnHigh nibble => Sys2Proof.Machine.execColumnHigh nibble s
  | .invertDisplay => Sys2Proof.Machine.execInvertDisplay s
  | .remapA0 => Sys2Proof.Machine.execRemapA0 s
  | .remapC0 => Sys2Proof.Machine.execRemapC0 s
  | .setMultiplex ratio => Sys2Proof.Machine.execSetMultiplex ratio s
  | .setDisplayOffset offset => Sys2Proof.Machine.execSetDisplayOffset offset s
  | .setStartLine line => Sys2Proof.Machine.execSetStartLine line s
  | .segmentRemapA1 => Sys2Proof.Machine.execSegmentRemapA1 s
  | .comScanRemapped => Sys2Proof.Machine.execComScanRemapped s
  | .setComPins config => Sys2Proof.Machine.execSetComPins config s
  | .displayFollowRam => Sys2Proof.Machine.execDisplayFollowRam s
  | .normalDisplay => Sys2Proof.Machine.execNormalDisplay s
  | .setClockDiv divider => Sys2Proof.Machine.execSetClockDiv divider s
  | .chargePump setting => Sys2Proof.Machine.execChargePump setting s
  | .displayOn => Sys2Proof.Machine.execDisplayOn s
  | .setAddressingMode mode => Sys2Proof.Machine.execSetAddressingMode mode s

end Sys2Proof.Machine
end

