-- ==== Sys2Proof/Machine/Step.lean ====
section
/-! DEFINITION. One step: the block takes the next request of the host's list and runs it whole (spec 00_scope R9, 10_state
R31, 60_exceptions R276, R283). -/
namespace Sys2Proof.Machine

/-- One step. A state with a fault takes no further request (R276). With no request to take the block waits (R301). -/
def step (s : State) : Host.Outcome State Fault Refusal :=
  match s.fault with
  | some record => .fault (.stopped record)
  | none =>
    match s.fetch with
    | .idle => .next s
    | .overlapping => .refused .overlappingRequests
    | .illegal op request => .next (s.raise (.illegalRequest op) request)
    | .unassigned port op => .refused (.unassignedCode port op)
    | .run i => exec i s

/-- The state with a table word's bytes as the next request of the host's list. The host gives its list from outside the
machine; this stands for that (log 6). -/
def State.withFetchWord (s : State) (nbits w : Nat) : State :=
  { s with program := putAt s.program s.next ⟨.bytes (tablePort nbits w) (tableBytes nbits w), false⟩ }

end Sys2Proof.Machine
end

