-- ==== Sys2Proof/Safety.lean ====
section
/-! DEFINITION. What statements about the block are made of: when a run has ended (spec 70_reset R321), the host's contract
(30_encoding R110, 60_exceptions R294), the invariant, the answers a request will see, and the frame predicates, which
together name every field of the state. -/
namespace Sys2Proof

/-- The host's contract (R110, R243, R294): pixels on the panel, cells of the grid, large text whose three pages are on the
panel and whose codes have glyphs. -/
def Instr.inContract : Instr → Bool
  | .setPixel x y _ => decide (0 ≤ x ∧ x ≤ 127 ∧ 0 ≤ y ∧ y ≤ 63)
  | .writeString col row text large =>
    decide (0 ≤ col ∧ col < Machine.cellsPerRow large ∧ 0 ≤ row ∧ row ≤ 7) &&
      (!large || (decide (row ≤ 5) && text.all fun c => decide (c.toNat < 128)))
  | _ => true

/-- Whether an instruction is an INIT. -/
def Instr.isInit : Instr → Bool
  | .init .. => true
  | _ => false

end Sys2Proof

namespace Sys2Proof.Machine

/-- The run has ended (R321): every request of the host's list has returned, and no fault is set. An entry that is refused
never returns. -/
def State.final (s : State) : Bool := s.fault.isNone && s.next == s.program.length

/-- The invariant of the block. -/
structure State.Inv (s : State) : Prop where
  /-- SHADOW is in canonical form, within its 1024 bytes (R40). -/
  shadow_wf : s.shadow.wf shadowSize = true
  /-- FONT8 is in canonical form, within its 2048 bytes (R41). -/
  font8_wf : s.font8.wf font8Size = true
  /-- FONT16 is in canonical form, within its 8192 bytes (R42). -/
  font16_wf : s.font16.wf font16Size = true
  /-- The parameters have the lengths and bounds of R13. -/
  params_wf : s.params.wf = true
  /-- A handle is held exactly while the session is Active (R35, R163). -/
  handle_iff : s.session = .active ↔ s.handle.isSome = true
  /-- A session that was ever opened has transformed the glyph tables (R150, R200). -/
  transformed : s.session = .uninitialized ∨ 0 < s.xformCount
  /-- The index of the next request counts the requests that have returned (R31). -/
  counted : s.responses.length = s.next

/-- The k-th answer the transport environment will give from this state on (R20). -/
def State.answerAt (s : State) (k : Nat) : Answer := (s.answers[k]?).getD (Config.freeAnswer (s.drawCount + k))

/-- The events of one SET_CURSOR (R166): three one-byte command transfers. -/
def State.positionEvents (s : State) (column page : Int) : List Event :=
  s.commandEvents [pageCmd page] ++ s.commandEvents [colLoCmd column] ++ s.commandEvents [colHiCmd column]

/-- The 8 bytes of glyph `c` of FONT8, from its address map (20_memory R74). -/
def State.glyph8Bytes (s : State) (c : Byte) : List Byte := (List.range 8).map fun n => s.font8.read (8 * c.toNat + n)

/-- The 16 bytes of strip `k` of glyph `c` of FONT16, from its address map (20_memory R75). -/
def State.strip16Bytes (s : State) (c : Byte) (k : Nat) : List Byte :=
  (List.range 16).map fun n => s.font16.read (64 * c.toNat + 16 * k + n)

/-- The events of one large character at a cell (R242): three positions, three strips. -/
def State.largeEvents (s : State) (cell row : Int) (c : Byte) : List Event :=
  (List.range 3).flatMap fun k =>
    s.positionEvents (cell * 16) (row + (k : Nat)) ++ s.dataEvents (s.strip16Bytes c k)

/-- The events of large characters from a cell on (R242). -/
def State.largeTextEvents (s : State) (row : Int) : List Byte → Int → List Event
  | [], _ => []
  | c :: text, cell => s.largeEvents cell row c ++ s.largeTextEvents row text (cell + 1)

/-! ## Frames: every field of the state stands in exactly one of these -/

/-- The session registers are unchanged. -/
structure SameSession (s t : State) : Prop where
  session : t.session = s.session
  kind : t.kind = s.kind
  handle : t.handle = s.handle
  dcLine : t.dcLine = s.dcLine
  rstLine : t.rstLine = s.rstLine

/-- The glyph tables and their count are unchanged. -/
structure SameTables (s t : State) : Prop where
  font8 : t.font8 = s.font8
  font16 : t.font16 = s.font16
  xformCount : t.xformCount = s.xformCount

/-- The shadow and the cursor are unchanged. -/
structure SameShadow (s t : State) : Prop where
  shadow : t.shadow = s.shadow
  cursor : t.cursor = s.cursor

/-- The host's list and the parameters are unchanged. -/
structure SameInputs (s t : State) : Prop where
  program : t.program = s.program
  params : t.params = s.params

/-- The request returned with this response (none: no code). -/
structure Returned (s t : State) (code : Option Code) : Prop where
  responses : t.responses = s.responses ++ [code]
  next : t.next = s.next + 1
  fault : t.fault = s.fault

/-- The request raised this fault: no response, and the index stays. -/
structure Raised (s t : State) (cause : FaultCause) (i : Instr) : Prop where
  fault : t.fault = some ⟨cause, .record i⟩
  responses : t.responses = s.responses
  next : t.next = s.next

/-- These events were emitted, and so many answers were drawn. -/
structure Emitted (s t : State) (events : List Event) (calls : Nat) : Prop where
  trace : t.trace = s.trace ++ events
  answers : t.answers = s.answers.drop calls
  drawCount : t.drawCount = s.drawCount + calls

/-- The glyph tables as a successful INIT leaves them (R200): rewritten and counted, but for the guarded variant, which skips
a second application. -/
def TablesAfterInit (s t : State) : Prop :=
  if s.params.xformOnce = true ∧ 0 < s.xformCount then SameTables s t
  else t.font8 = rotateFont8 s.font8 ∧ t.font16 = rotateFont16 s.font16 ∧ t.xformCount = s.xformCount + 1

/-- The state after an INIT that failed (R151): the calls made so far, the code 1, and nothing else. -/
def State.failedInit (s : State) (events : List Event) (calls : Nat) : State :=
  { s with trace := s.trace ++ events, answers := s.answers.drop calls, drawCount := s.drawCount + calls,
           responses := s.responses ++ [some .one], next := s.next + 1 }

/-- The state after a request that only returned a code. -/
def State.onlyAnswered (s : State) (code : Option Code) : State :=
  { s with responses := s.responses ++ [code], next := s.next + 1 }

/-- The state after a request that made one command transfer and returned a code (R125, R160). -/
def State.sentCommand (s : State) (bytes : List Byte) (code : Option Code) : State :=
  { s with trace := s.trace ++ s.commandEvents bytes, answers := s.answers.drop 1, drawCount := s.drawCount + 1,
           responses := s.responses ++ [code], next := s.next + 1 }

/-- Every byte of a memory outside `[start, start + len)` is unchanged. -/
def SameOutside (m m' : Memory) (start len : Nat) : Prop :=
  ∀ a, a < start ∨ start + len ≤ a → m'.read a = m.read a

end Sys2Proof.Machine
end

