-- ==== Sys2Proof/Certificates/Slice0/Obligations.lean ====
section
/-! DEFINITION. The statements for the provers, each a Prop; OBLIGATIONS.json lists them. Each docstring names the rule or the
section of spec/ it formalises, and the log entry of a clause that is the model's choice. -/

section
open Sys2Proof Sys2Proof.Machine

/-! ## Encoding -/

/-- 30_encoding, sections 1, 2 and 4: decoding the encoding of a well-formed instruction gives it back, and the bytes after it.
The operand bytes of the micro-operations are the model's (log 8). -/
def Obligations.DecodeOfEncode : Prop :=
  ∀ (i : Instr) (rest : List Byte), i.wellFormed = true → decode i.port (encode i ++ rest) = .instr i rest

/-- 30_encoding, sections 1, 2 and 4: bytes that decode are the encoding of a well-formed instruction of that port, followed by
the rest: within one encoding no two byte sequences stand for one instruction. -/
def Obligations.EncodeOfDecode : Prop :=
  ∀ (p : Port) (bytes : List Byte) (i : Instr) (rest : List Byte), decode p bytes = .instr i rest →
    i.wellFormed = true ∧ i.port = p ∧ encode i ++ rest = bytes

/-- 95_test_vectors V-E1, 30_encoding R112 to R124: bytes written out from the spec decode to the instruction they stand for. -/
def Obligations.DecodesSpecWords : Prop :=
  decode .host [0x01, 0x06, 0x00, 0x00, 0x18, 0x00, 0x19, 0x00] = .instr (.init 0 0 false true true 24 25) [] ∧
  decode .host [0x04, 0xFF, 0xFF, 0x40, 0x00, 0x01] = .instr (.setPixel (-1) 64 0x01) [] ∧
  decode .host [0x05, 0x01, 0x07, 0x06, 0x01, 0x41] = .instr (.writeString 7 6 [0x41] true) [] ∧
  decode .host [0x06, 0x7F] = .instr (.setContrast 0x7F) [] ∧
  decode .controller [0xB3] = .instr (.pageSelect 3) [] ∧
  decode .controller [0x81, 0x7F] = .instr (.setContrastCmd 0x7F) [] ∧
  decode .controller [0xDA, 0x12] = .instr (.setComPins 0x12) [] ∧
  decode .sequencer [0x83] = .instr .xform8 []

/-- 30_encoding R129, R130 (the spec's own decision D5): a serialized host request is rejected exactly when its opcode is
unassigned, a reserved flags bit is 1, or it is shorter than its format. -/
def Obligations.HostRejectsExactlyIllegal : Prop :=
  ∀ (op : Byte) (rest : List Byte),
    (∃ r, decode .host (op :: rest) = .reject r) ↔
      (op.toNat = 0 ∨ 7 ≤ op.toNat) ∨
      (op = 0x01 ∧ (rest.length < 7 ∨ ∃ flags t, rest = flags :: t ∧ flags.toNat / 8 ≠ 0)) ∨
      (op = 0x03 ∧ rest.length < 1) ∨
      (op = 0x04 ∧ rest.length < 5) ∨
      (op = 0x05 ∧ (rest.length < 4 ∨ (∃ flags t, rest = flags :: t ∧ flags.toNat / 2 ≠ 0) ∨
        ∃ flags col row n t, rest = flags :: col :: row :: n :: t ∧ t.length < n.toNat)) ∨
      (op = 0x06 ∧ rest.length < 1)

/-- spec/opcode_table.json: on one port a first byte belongs to one row of the table. -/
def Obligations.OpcodeRowsDisjoint : Prop :=
  ∀ (i j : Instr) (b : Byte), i.row.port = j.row.port → b &&& i.row.mask = i.row.value →
    b &&& j.row.mask = j.row.value → i.row = j.row

/-- 30_encoding R124: the default `INIT_SEQ` (which the spec marks general knowledge, log 2) is 21 bytes long and is the
byte stream of the commands its table names. -/
def Obligations.DefaultInitSeqCommands : Prop :=
  Config.defaultInitSeq.length = 21 ∧
  decodeStream 21 Config.defaultInitSeq =
    some [.displayOff, .setMultiplex 0x3F, .setDisplayOffset 0x00, .setStartLine 0, .segmentRemapA1, .comScanRemapped,
      .setComPins 0x12, .setContrastCmd 0xFF, .displayFollowRam, .normalDisplay, .setClockDiv 0x80, .chargePump 0x14,
      .displayOn, .setAddressingMode 0x02]

/-! ## The step -/

/-- 00_scope R9, 10_state R31: with no fault, a step takes the entry at the index of the next request. Bytes that decode to an
instruction run as that instruction, an abstract record as the instruction it is; the step is `exec` of it at that state. The
model's choices in it: an entry may be bytes on the sequencer's or the controller's port (log 7), bytes after the instruction
(`rest`) are ignored (log 13), and a record runs whatever the width of its operands (log 17). -/
def Obligations.StepRunsDecoded : Prop :=
  (∀ (s : State) (p : Port) (bytes rest : List Byte) (i : Instr), s.fault = none →
    s.program[s.next]? = some ⟨.bytes p bytes, false⟩ → decode p bytes = .instr i rest → step s = exec i s) ∧
  (∀ (s : State) (i : Instr), s.fault = none → s.program[s.next]? = some ⟨.record i, false⟩ → step s = exec i s)

/-- 70_reset R301 (the spec derives it): with no fault and no request to take, the block waits; so it does right after reset. -/
def Obligations.StepWaitsForRequest : Prop :=
  (∀ s : State, s.fault = none → s.program[s.next]? = none → step s = .next s) ∧ step State.reset = .next State.reset

/-- 60_exceptions R276 (the spec's own decision D38; that the model stops with this fault is log 5): a faulted state takes no
further request, and it is never final. -/
def Obligations.FaultedTakesNoRequest : Prop :=
  ∀ (s : State) (r : FaultRecord), s.fault = some r → step s = .fault (.stopped r) ∧ s.final = false

/-- 60_exceptions R283 (the spec's own decision D28; how overlap is told is log 12): an entry issued before the previous
request had returned has no move. -/
def Obligations.OverlapRefused : Prop :=
  ∀ (s : State) (p : Payload), s.fault = none → s.program[s.next]? = some ⟨p, true⟩ →
    step s = .refused .overlappingRequests

/-- 60_exceptions R276, R277, 10_state R31 (the spec's own decisions D5, D31, D38): bytes on the host port that do not decode raise
`IllegalRequest` with the opcode byte, the first of the request (none where there is no byte: log 13), and change nothing else:
no event, no response, the index stays. -/
def Obligations.IllegalRequestRaised : Prop :=
  ∀ (s : State) (bytes : List Byte) (r : Reject), s.fault = none →
    s.program[s.next]? = some ⟨.bytes .host bytes, false⟩ → decode .host bytes = .reject r →
    step s = .next { s with fault := some ⟨.illegalRequest bytes.head?, .bytes .host bytes⟩ }

/-- What the sequencer's and the controller's port refuse, the model's choice (log 7, log 8; the codes are those of 30_encoding,
sections 2 and 4): with no fault, a step refuses bytes there that do not decode, under a name of their own and with the first
byte. The sequencer's port rejects a code that is no micro-operation's, too few bytes, and a WRITE_COMMAND of a length other than
1, 2 or 21; the controller's a byte that starts no command, and a two-byte command without its second byte; both, no byte. -/
def Obligations.OtherPortsRefuse : Prop :=
  (∀ (s : State) (p : Port) (bytes : List Byte) (r : Reject), p ≠ .host → s.fault = none →
    s.program[s.next]? = some ⟨.bytes p bytes, false⟩ → decode p bytes = .reject r →
    step s = .refused (.unassignedCode p bytes.head?)) ∧
  (∀ p : Port, ∃ r, decode p [] = .reject r) ∧
  (∀ (op : Byte) (rest : List Byte),
    (∃ r, decode .sequencer (op :: rest) = .reject r) ↔
      (op.toNat < 0x80 ∨ 0x84 < op.toNat) ∨
      (op = 0x80 ∧ rest.length < 4) ∨
      (op = 0x81 ∧ (rest = [] ∨ ∃ n t, rest = n :: t ∧
        (t.length < n.toNat + 1 ∨ (n.toNat + 1 ≠ 1 ∧ n.toNat + 1 ≠ 2 ∧ n.toNat + 1 ≠ 21)))) ∨
      (op = 0x82 ∧ (rest = [] ∨ ∃ n t, rest = n :: t ∧ t.length < n.toNat + 1))) ∧
  (∀ (op : Byte) (rest : List Byte),
    (∃ r, decode .controller (op :: rest) = .reject r) ↔
      ¬ (op.toNat < 0x20 ∨ (0x40 ≤ op.toNat ∧ op.toNat < 0x80) ∨ (0xB0 ≤ op.toNat ∧ op.toNat < 0xB8) ∨
        op ∈ ([0xA0, 0xA1, 0xA4, 0xA6, 0xA7, 0xAE, 0xAF, 0xC0, 0xC8] : List Byte)) ∧
      (op ∈ ([0x20, 0x81, 0x8D, 0xA8, 0xD3, 0xD5, 0xDA] : List Byte) → rest = []))

/-- The word of a row of the opcode table, put where the step takes its next request, runs (log 6, log 10). -/
def Obligations.FetchWordRunsNext : Prop :=
  ∀ (s : State) (nbits w : Nat) (i : Instr), s.fault = none → decodeTableWord nbits w = some i →
    step (s.withFetchWord nbits w) = exec i (s.withFetchWord nbits w)

/-- Every instruction answers a next state, in every state: none is refused and none stops the machine. -/
def Obligations.ExecAnswersState : Prop :=
  ∀ (i : Instr) (s : State), ∃ t, exec i s = .next t

/-! ## The session: INIT, SHUTDOWN, SET_CONTRAST -/

/-- 40_session R158, 30_encoding R122: SET_CONTRAST sends the two bytes as one command transfer and returns 0; when not
Active it returns -1 and does nothing. -/
def Obligations.ContrastResult : Prop :=
  ∀ (level : Byte) (s : State),
    (s.session = .active → exec (.setContrast level) s = .next (s.sentCommand [0x81, level] (some .zero))) ∧
    (s.session ≠ .active → exec (.setContrast level) s = .next (s.onlyAnswered (some .minusOne)))

/-- 40_session, section 2 (SHUTDOWN; what is kept is the spec's own decision D21, D37): from Active the display-off command, the
close of the transport kind, the release; HANDLE None, SESSION Closed, no code. Otherwise a no-op. -/
def Obligations.ShutdownResult : Prop :=
  ∀ s : State,
    (s.session = .active → ∃ t, exec .shutdown s = .next t ∧
      Emitted s t (s.commandEvents [0xAE] ++
        [if s.kind = .addressed then .closeAddressed s.handle else .closeStrobed s.handle, .hwShutdown]) 1 ∧
      t.session = .closed ∧ t.handle = none ∧ t.kind = s.kind ∧ t.dcLine = s.dcLine ∧ t.rstLine = s.rstLine ∧
      SameTables s t ∧ SameShadow s t ∧ SameInputs s t ∧ Returned s t none) ∧
    (s.session ≠ .active → exec .shutdown s = .next (s.onlyAnswered none))

/-- 40_session, section 1 (INIT; the order of the calls is the spec's own decision D12, D13): on the bus-addressed transport,
when the layer and the open answer Ok, INIT makes exactly these calls, transforms the tables, and returns 0 in Active. -/
def Obligations.InitAddressedResult : Prop :=
  ∀ (channel address dcLine resetLine v handle : Nat) (flip invert : Bool) (s : State),
    s.session ≠ .active → s.answerAt 0 = .ok v → s.answerAt 1 = .ok handle →
    ∃ t, exec (.init channel address flip invert false dcLine resetLine) s = .next t ∧
      t.session = .active ∧ t.kind = .addressed ∧ t.handle = some handle ∧ t.dcLine = s.dcLine ∧ t.rstLine = s.rstLine ∧
      Emitted s t
        ([.hwInit, .openAddressed channel address, .writeAddressed (some handle) s.params.ctrlCmd s.params.initSeq] ++
          (if invert then [.writeAddressed (some handle) s.params.ctrlCmd [0xA7]] else []) ++
          (if flip then [.writeAddressed (some handle) s.params.ctrlCmd [0xA0],
            .writeAddressed (some handle) s.params.ctrlCmd [0xC0]] else []))
        (3 + (if invert then 1 else 0) + (if flip then 2 else 0)) ∧
      TablesAfterInit s t ∧ SameShadow s t ∧ SameInputs s t ∧ Returned s t (some .zero)

/-- 40_session, section 1 (INIT and its reset pulse; order and release level are the spec's own decision D12, D13): on the
pin-strobed transport, when the layer, the open and both registrations answer Ok, INIT registers both lines, pulses the reset
line (low, hold, high) and sends its commands, each after the select line. -/
def Obligations.InitStrobedResult : Prop :=
  ∀ (channel address dcLine resetLine v handle v2 v3 : Nat) (flip invert : Bool) (s : State),
    s.session ≠ .active → s.answerAt 0 = .ok v → s.answerAt 1 = .ok handle → s.answerAt 2 = .ok v2 →
    s.answerAt 3 = .ok v3 →
    ∃ t, exec (.init channel address flip invert true dcLine resetLine) s = .next t ∧
      t.session = .active ∧ t.kind = .strobed ∧ t.handle = some handle ∧ t.dcLine = dcLine ∧ t.rstLine = resetLine ∧
      Emitted s t
        ([.hwInit, .openStrobed channel s.params.strobedClockHz, .gpioRegister dcLine, .gpioRegister resetLine,
            .gpioWrite resetLine false, .delay s.params.resetHoldMs, .gpioWrite resetLine true,
            .gpioWrite dcLine s.params.dcCmdLevel, .writeStrobed (some handle) s.params.initSeq] ++
          (if invert then [.gpioWrite dcLine s.params.dcCmdLevel, .writeStrobed (some handle) [0xA7]] else []) ++
          (if flip then [.gpioWrite dcLine s.params.dcCmdLevel, .writeStrobed (some handle) [0xA0],
            .gpioWrite dcLine s.params.dcCmdLevel, .writeStrobed (some handle) [0xC0]] else []))
        (5 + (if invert then 1 else 0) + (if flip then 2 else 0)) ∧
      TablesAfterInit s t ∧ SameShadow s t ∧ SameInputs s t ∧ Returned s t (some .zero)

/-- 40_session, section 1 (INIT failure; that nothing is cleaned up is the spec's own decision D15): INIT returns 1 at the first
of its answers that is an error: the layer, the open, either registration. It makes no further call and changes nothing else. -/
def Obligations.InitFailureResult : Prop :=
  ∀ (channel address dcLine resetLine : Nat) (flip invert strobed : Bool) (s : State), s.session ≠ .active →
    let i := Instr.init channel address flip invert strobed dcLine resetLine
    let opened := [Event.hwInit, if strobed then .openStrobed channel s.params.strobedClockHz
      else .openAddressed channel address]
    (s.answerAt 0 = .error → exec i s = .next (s.failedInit [.hwInit] 1)) ∧
    (s.answerAt 0 ≠ .error → s.answerAt 1 = .error → exec i s = .next (s.failedInit opened 2)) ∧
    (strobed = true → s.answerAt 0 ≠ .error → s.answerAt 1 ≠ .error → s.answerAt 2 = .error →
      exec i s = .next (s.failedInit (opened ++ [.gpioRegister dcLine]) 3)) ∧
    (strobed = true → s.answerAt 0 ≠ .error → s.answerAt 1 ≠ .error → s.answerAt 2 ≠ .error → s.answerAt 3 = .error →
      exec i s = .next (s.failedInit (opened ++ [.gpioRegister dcLine, .gpioRegister resetLine]) 4))

/-- 40_session, section 1 (INIT while Active: the spec's own decision D16): `ReinitActive` before any event, and nothing else. -/
def Obligations.InitWhileActiveRaises : Prop :=
  ∀ (channel address dcLine resetLine : Nat) (flip invert strobed : Bool) (s : State), s.session = .active →
    exec (.init channel address flip invert strobed dcLine resetLine) s =
      .next { s with fault := some ⟨.reinitActive, .record (.init channel address flip invert strobed dcLine resetLine)⟩ }

/-! ## The sequencer's micro-operations and the controller's commands -/

/-- 40_session, section 4 (WRITE_COMMAND), and 30_encoding, section 3 (the framing; the control byte and the level are parameters,
the spec's own decisions D9, D10): one command transfer whatever the bytes, which is one write with the control byte on the
addressed transport, the select line's level and then the write on the strobed one, both with HANDLE; the shadow and the cursor
are neither written nor read. That a micro-operation run on its own returns without a code, and that it takes any length, is
the model's choice (log 7, log 14, log 15). -/
def Obligations.WriteCommandResult : Prop :=
  ∀ (bytes : List Byte) (s : State),
    exec (.writeCommand bytes) s = .next (s.sentCommand bytes none) ∧
    (s.kind = .addressed → s.commandEvents bytes = [.writeAddressed s.handle s.params.ctrlCmd bytes]) ∧
    (s.kind = .strobed →
      s.commandEvents bytes = [.gpioWrite s.dcLine s.params.dcCmdLevel, .writeStrobed s.handle bytes]) ∧
    ∀ (m : Memory) (c : Int),
      exec (.writeCommand bytes) { s with shadow := m, cursor := c } =
        .next { s.sentCommand bytes none with shadow := m, cursor := c }

/-- 40_session, section 5 (SET_CURSOR): three one-byte command transfers and the cursor `page · 128 + column`, for every
integer column and page. That it returns without a code is the model's choice (log 7, log 14). -/
def Obligations.SetCursorResult : Prop :=
  ∀ (column page : Int) (s : State), ∃ t, exec (.setCursor column page) s = .next t ∧
    t.cursor = page * 128 + column ∧ t.shadow = s.shadow ∧
    Emitted s t (s.commandEvents [pageCmd page] ++ s.commandEvents [colLoCmd column] ++ s.commandEvents [colHiCmd column]) 3 ∧
    SameSession s t ∧ SameTables s t ∧ SameInputs s t ∧ Returned s t none

/-- 30_encoding, section 2 (page-select, column-low, column-high; what lies outside the panel is the spec's own decision D3): the
bytes of a position as numbers. -/
def Obligations.PositionBytes : Prop :=
  (∀ p : Int, pageCmd p = 0xB0 ||| BitVec.ofInt 8 p) ∧
  (∀ p : Int, 0 ≤ p → p ≤ 7 → ((pageCmd p).toNat : Int) = 0xB0 + p) ∧
  (∀ c : Int, ((colLoCmd c).toNat : Int) = c % 16) ∧
  (∀ c : Int, ((colHiCmd c).toNat : Int) = 0x10 + c % 256 / 16)

/-- 40_session, section 6 (WRITE_DATA; the range check is the spec's own decision D23, the copy whatever the answer D14), and
30_encoding, section 3 (the framing; its parameters are decisions D9, D10): in range the data transfer, the shadow copy and the
cursor's advance; else `ShadowRange` and nothing else. A write that ends at 1024 is legal. The model's choices: it returns
without a code (log 7, log 14), and no bytes at all make an empty data transfer where the cursor is in range (log 15; the spec
names lengths of 1 and more). -/
def Obligations.WriteDataResult : Prop :=
  ∀ (bytes : List Byte) (s : State),
    (0 ≤ s.cursor → s.cursor + bytes.length ≤ 1024 → ∃ t, exec (.writeData bytes) s = .next t ∧
      (∀ k < bytes.length, t.shadow.read (s.cursor.toNat + k) = bytes.getD k 0) ∧
      SameOutside s.shadow t.shadow s.cursor.toNat bytes.length ∧ t.cursor = s.cursor + bytes.length ∧
      Emitted s t (s.dataEvents bytes) 1 ∧ SameSession s t ∧ SameTables s t ∧ SameInputs s t ∧ Returned s t none) ∧
    (s.kind = .addressed → s.dataEvents bytes = [.writeAddressed s.handle s.params.ctrlData bytes]) ∧
    (s.kind = .strobed →
      s.dataEvents bytes = [.gpioWrite s.dcLine s.params.dcDataLevel, .writeStrobed s.handle bytes]) ∧
    (s.cursor < 0 ∨ 1024 < s.cursor + bytes.length →
      exec (.writeData bytes) s =
        .next { s with fault := some ⟨.shadowRange s.cursor bytes.length, .record (.writeData bytes)⟩ })

/-- 30_encoding R122, R123, R125: each of the 20 commands of the controller's byte stream (DISPLAY_OFF, SET_CONTRAST_CMD,
PAGE_SELECT, COLUMN_LOW, COLUMN_HIGH, INVERT_DISPLAY, REMAP_A0, REMAP_C0, and the 12 of the initialization sequence) is sent as
one command transfer of its own bytes, and nothing else changes. That a command is an instruction of its own, and the 12 outside
`INIT_SEQ`, is the model's choice (log 7, log 9, log 14). -/
def Obligations.ControllerCommandsSend : Prop :=
  ∀ (i : Instr) (s : State), i.port = .controller → exec i s = .next (s.sentCommand (encode i) none)

/-- 30_encoding R127: on the bus-addressed wire the control byte comes first and the bytes follow; on the pin-strobed wire the
image is the bytes alone; so it is of the transfers the block makes. -/
def Obligations.WireImage : Prop :=
  ∀ (bytes : List Byte) (s : State),
    (∀ (h : Option Nat) (ctrl : Byte), Event.wire (.writeAddressed h ctrl bytes) = some ([ctrl] ++ bytes)) ∧
    (∀ h : Option Nat, Event.wire (.writeStrobed h bytes) = some bytes) ∧
    (s.kind = .addressed → (s.commandEvents bytes).filterMap Event.wire = [[s.params.ctrlCmd] ++ bytes] ∧
      (s.dataEvents bytes).filterMap Event.wire = [[s.params.ctrlData] ++ bytes]) ∧
    (s.kind = .strobed → (s.commandEvents bytes).filterMap Event.wire = [bytes] ∧
      (s.dataEvents bytes).filterMap Event.wire = [bytes])

/-! ## The font transform -/

/-- 41_font_transform R202 (the spec derives it): the source's loop and the bit equation of ROT8 agree. -/
def Obligations.Rot8LoopAgrees : Prop :=
  ∀ g : List Byte, g.length = 8 → rot8Loop g = rot8 g

/-- 41_font_transform R203 (the spec derives it): twice ROT8 is the glyph turned by 180 degrees, four times is the identity,
and ROT8 is a bijection on 8-byte glyphs. -/
def Obligations.Rot8Turns : Prop :=
  (∀ (g : List Byte) (k r : Nat), g.length = 8 → k < 8 → r < 8 →
    ((rot8 (rot8 g)).getD k 0).getLsbD r = (g.getD (7 - k) 0).getLsbD (7 - r)) ∧
  (∀ g : List Byte, g.length = 8 → rot8 (rot8 (rot8 (rot8 g))) = g) ∧
  (∀ o : List Byte, o.length = 8 → ∃! g : List Byte, g.length = 8 ∧ rot8 g = o)

/-- 41_font_transform R206 (the spec derives it): each half of ROT16 is ROT8 of the even, of the odd input bytes. -/
def Obligations.Rot16Halves : Prop :=
  ∀ t : List Byte, t.length = 16 →
    (rot16 t).take 8 = rot8 ((List.range 8).map fun r => t.getD (2 * r) 0) ∧
    (rot16 t).drop 8 = rot8 ((List.range 8).map fun r => t.getD (2 * r + 1) 0)

/-- 41_font_transform R206 (the spec derives it): 14 applications of ROT16 give the identity on every strip, and no fewer do. -/
def Obligations.Rot16OrderFourteen : Prop :=
  (∀ t : List Byte, t.length = 16 → rot16^[14] t = t) ∧
  ∀ n : Nat, 0 < n → n < 14 → ∃ t : List Byte, t.length = 16 ∧ rot16^[n] t ≠ t

/-- 41_font_transform, section 2 (XFORM8; the bit-plane direction is the spec's own decision D29): bit b of row byte r of every
glyph becomes bit r of its byte 7 - b; no event, nothing else changes. That it returns without a code is log 7, log 14. -/
def Obligations.Xform8Result : Prop :=
  ∀ s : State, ∃ t, exec .xform8 s = .next t ∧
    (∀ c < 256, ∀ r < 8, ∀ b < 8,
      (t.font8.read (8 * c + (7 - b))).getLsbD r = (s.font8.read (8 * c + r)).getLsbD b) ∧
    (∀ a, 2048 ≤ a → t.font8.read a = s.font8.read a) ∧
    t.font16 = s.font16 ∧ t.xformCount = s.xformCount ∧ SameSession s t ∧ SameShadow s t ∧ SameInputs s t ∧
    Emitted s t [] 0 ∧ Returned s t none

/-- 41_font_transform, section 3 (XFORM16; that even bytes are the left half is the spec's own reading, C3): in every strip, bit b
of even byte 2r becomes bit r of byte 7 - b, bit b of odd byte 2r + 1 bit r of byte 15 - b; nothing else changes. That it
returns without a code is log 7, log 14. -/
def Obligations.Xform16Result : Prop :=
  ∀ s : State, ∃ t, exec .xform16 s = .next t ∧
    (∀ c < 128, ∀ k < 4, ∀ r < 8, ∀ b < 8,
      (t.font16.read (64 * c + 16 * k + (7 - b))).getLsbD r = (s.font16.read (64 * c + 16 * k + 2 * r)).getLsbD b ∧
      (t.font16.read (64 * c + 16 * k + (15 - b))).getLsbD r = (s.font16.read (64 * c + 16 * k + (2 * r + 1))).getLsbD b) ∧
    (∀ a, 8192 ≤ a → t.font16.read a = s.font16.read a) ∧
    t.font8 = s.font8 ∧ t.xformCount = s.xformCount ∧ SameSession s t ∧ SameShadow s t ∧ SameInputs s t ∧
    Emitted s t [] 0 ∧ Returned s t none

/-! ## Drawing -/

/-- 42_drawing, section 1 (FILL; that it cannot fault is derived by the spec): FILL positions at column 0 of each page and writes
128 bytes of the pattern: every shadow byte is the pattern, the cursor is 1024; -1 and nothing else when not Active. -/
def Obligations.FillResult : Prop :=
  ∀ (pattern : Byte) (s : State),
    (s.session = .active → ∃ t, exec (.fill pattern) s = .next t ∧
      (∀ a < 1024, t.shadow.read a = pattern) ∧ (∀ a, 1024 ≤ a → t.shadow.read a = s.shadow.read a) ∧ t.cursor = 1024 ∧
      Emitted s t ((List.range 8).flatMap fun p =>
        s.positionEvents 0 (p : Nat) ++ s.dataEvents (List.replicate 128 pattern)) 32 ∧
      SameSession s t ∧ SameTables s t ∧ SameInputs s t ∧ Returned s t (some .zero)) ∧
    (s.session ≠ .active → exec (.fill pattern) s = .next (s.onlyAnswered (some .minusOne)))

/-- 60_exceptions R272: FILL, SET_PIXEL, WRITE_STRING and SET_CONTRAST return -1 before any other check and with no event when
the session is not Active; SHUTDOWN is then a no-op. -/
def Obligations.NotActiveFails : Prop :=
  ∀ s : State, s.session ≠ .active →
    (∀ pattern, exec (.fill pattern) s = .next (s.onlyAnswered (some .minusOne))) ∧
    (∀ x y color, exec (.setPixel x y color) s = .next (s.onlyAnswered (some .minusOne))) ∧
    (∀ col row text large, exec (.writeString col row text large) s = .next (s.onlyAnswered (some .minusOne))) ∧
    (∀ level, exec (.setContrast level) s = .next (s.onlyAnswered (some .minusOne))) ∧
    exec .shutdown s = .next (s.onlyAnswered none)

/-- 60_exceptions, sections 1 and 4 (class 3; that `BadArgument` comes before is the spec's own decision D24): SET_PIXEL returns
-1 when `PIX_OK` fails, WRITE_STRING when the clamped length is not positive; neither emits an event or changes state. -/
def Obligations.OutOfBoundsFails : Prop :=
  ∀ s : State, s.session = .active →
    (∀ x y color, pixOk s.params.pixelBounds x y = false →
      exec (.setPixel x y color) s = .next (s.onlyAnswered (some .minusOne))) ∧
    (∀ col row text large, 0 ≤ col → 0 ≤ row → row ≤ 7 → min (text.length : Int) (cellsPerRow large - col) ≤ 0 →
      exec (.writeString col row text large) s = .next (s.onlyAnswered (some .minusOne)))

/-- 42_drawing R233: index is the default mode, and in it the test of a pixel is that its shadow index is in 0..1023. -/
def Obligations.PixelIndexTest : Prop :=
  State.reset.params.pixelBounds = .index ∧
    ∀ x y : Int, pixOk .index x y = true ↔ 0 ≤ y / 8 * 128 + x ∧ y / 8 * 128 + x ≤ 1023

/-- 42_drawing, section 2 (R234, of which the agreement is derived by the spec): the coordinate test, and that it is the index
test for every x on the panel. -/
def Obligations.PixelModesAgree : Prop :=
  ∀ x y : Int, (pixOk .coordinate x y = true ↔ 0 ≤ x ∧ x ≤ 127 ∧ 0 ≤ y ∧ y ≤ 63) ∧
    (0 ≤ x → x ≤ 127 → pixOk .index x y = pixOk .coordinate x y)

/-- 42_drawing R235: the new byte has the pixel's bit set for a nonzero color and cleared for zero; no other bit changes. -/
def Obligations.PixelByteRule : Prop :=
  ∀ (old color : Byte) (y : Int) (k : Nat), k < 8 →
    (pixelByte old y color).getLsbD k = if k = (y % 8).toNat then decide (color ≠ 0) else old.getLsbD k

/-- 20_memory R71: after SET_PIXEL on a pixel of the panel, bit `mod8(y)` of shadow byte `div8(y) · 128 + x` is set iff the color
was nonzero. -/
def Obligations.PixelBitFollowsColor : Prop :=
  ∀ (x y : Nat) (color : Byte) (s : State), s.session = .active → x < 128 → y < 64 →
    ∃ t, exec (.setPixel x y color) s = .next t ∧
      (t.shadow.read (y / 8 * 128 + x)).getLsbD (y % 8) = decide (color ≠ 0) ∧ Returned s t (some .zero)

/-- 42_drawing, section 2 (SET_PIXEL; that it cannot fault is derived by the spec): on an accepted pixel it does nothing but return
0 if the byte would not change; else it positions the cursor, writes the one byte, and returns 0. -/
def Obligations.SetPixelResult : Prop :=
  ∀ (x y : Int) (color : Byte) (s : State),
    (s.session ≠ .active → exec (.setPixel x y color) s = .next (s.onlyAnswered (some .minusOne))) ∧
    (s.session = .active → pixOk s.params.pixelBounds x y = false →
      exec (.setPixel x y color) s = .next (s.onlyAnswered (some .minusOne))) ∧
    (s.session = .active → pixOk s.params.pixelBounds x y = true →
      let i := y / 8 * 128 + x
      let old := s.shadow.read i.toNat
      let new := if color ≠ 0 then old ||| 1#8 <<< (y % 8).toNat else old &&& ~~~(1#8 <<< (y % 8).toNat)
      (new = old → exec (.setPixel x y color) s = .next (s.onlyAnswered (some .zero))) ∧
      (new ≠ old → ∃ t, exec (.setPixel x y color) s = .next t ∧
        t.shadow.read i.toNat = new ∧ SameOutside s.shadow t.shadow i.toNat 1 ∧ t.cursor = i + 1 ∧
        Emitted s t (s.positionEvents x (y / 8) ++ s.dataEvents [new]) 4 ∧
        SameSession s t ∧ SameTables s t ∧ SameInputs s t ∧ Returned s t (some .zero)))

/-- 42_drawing, section 2 (the corner cases, derived by the spec): a second SET_PIXEL with the same color at the same place (both
zero or both nonzero) emits nothing. -/
def Obligations.SetPixelTwiceWritesOnce : Prop :=
  ∀ (x y : Int) (color color' : Byte) (s t : State), s.session = .active →
    pixOk s.params.pixelBounds x y = true → (color = 0 ↔ color' = 0) → exec (.setPixel x y color) s = .next t →
    exec (.setPixel x y color') t = .next (t.onlyAnswered (some .zero))

/-- 42_drawing, section 3 (the spec's own decision D24): WRITE_STRING with col < 0, row < 0 or row > 7 raises `BadArgument` after
the session check and before any event, whatever the text. -/
def Obligations.BadArgumentRaised : Prop :=
  ∀ (col row : Int) (text : List Byte) (large : Bool) (s : State), s.session = .active →
    (col < 0 ∨ row < 0 ∨ 7 < row) →
    exec (.writeString col row text large) s =
      .next { s with fault := some ⟨.badArgument col row, .record (.writeString col row text large)⟩ }

/-- 42_drawing, section 3 (the fit and the small-font path; that all bytes stay in the page, and the base 8c of a glyph in
20_memory, section 2, are derived by the spec): one position, then the 8 bytes of each character's glyph in FONT8, contiguously;
longer text is cut to the columns left. -/
def Obligations.SmallTextResult : Prop :=
  ∀ (col row : Int) (text : List Byte) (s : State), s.session = .active → 0 ≤ col → col < 16 → 0 ≤ row → row ≤ 7 →
    text ≠ [] →
    let shown := text.take (16 - col).toNat
    let start := (row * 128 + col * 8).toNat
    ∃ t, exec (.writeString col row text false) s = .next t ∧
      (∀ k < shown.length, ∀ n < 8,
        t.shadow.read (start + 8 * k + n) = s.font8.read (8 * (shown.getD k 0).toNat + n)) ∧
      SameOutside s.shadow t.shadow start (8 * shown.length) ∧
      t.cursor = row * 128 + 8 * (col + shown.length) ∧ col + shown.length ≤ 16 ∧
      Emitted s t (s.positionEvents (col * 8) row ++ shown.flatMap fun c => s.dataEvents (s.glyph8Bytes c))
        (3 + shown.length) ∧
      SameSession s t ∧ SameTables s t ∧ SameInputs s t ∧ Returned s t (some .zero)

/-- 42_drawing R242: where its three pages are on the panel and every code has a glyph, each character of a large text costs
three positions and three 16-byte writes: strips 0, 1 and 2 at pages row, row + 1 and row + 2; strip 3 is never sent. -/
def Obligations.LargeTextResult : Prop :=
  ∀ (col row : Int) (text : List Byte) (s : State), s.session = .active → 0 ≤ col → col < 8 → 0 ≤ row → row ≤ 5 →
    text ≠ [] → (∀ c ∈ text.take (8 - col).toNat, c.toNat < 128) →
    let shown := text.take (8 - col).toNat
    ∃ t, exec (.writeString col row text true) s = .next t ∧
      (∀ k < shown.length, ∀ j < 3, ∀ n < 16,
        t.shadow.read (((row + (j : Nat)) * 128 + (col + (k : Nat)) * 16).toNat + n) =
          s.font16.read (64 * (shown.getD k 0).toNat + 16 * j + n)) ∧
      (∀ a, (∀ j < 3, a < ((row + (j : Nat)) * 128 + col * 16).toNat ∨
        ((row + (j : Nat)) * 128 + col * 16).toNat + 16 * shown.length ≤ a) → t.shadow.read a = s.shadow.read a) ∧
      t.cursor = (row + 2) * 128 + 16 * (col + shown.length) ∧
      Emitted s t (s.largeTextEvents row shown col) (12 * shown.length) ∧
      SameSession s t ∧ SameTables s t ∧ SameInputs s t ∧ Returned s t (some .zero)

/-- 42_drawing, section 3 (the spec's own decision D25): a large-font code of 128 or more raises `GlyphRange` when it is
reached: the transfers of the characters before it stand, in the trace, in the shadow and in the cursor, and nothing else was
done; at rows 6 and 7 it is reached first or not at all. -/
def Obligations.GlyphRangeRaised : Prop :=
  ∀ (col row : Int) (text before after : List Byte) (c : Byte) (s : State), s.session = .active → 0 ≤ col → 0 ≤ row →
    (row ≤ 5 ∨ row ≤ 7 ∧ before = []) → text.take (8 - col).toNat = before ++ c :: after →
    (∀ d ∈ before, d.toNat < 128) → 128 ≤ c.toNat →
    ∃ t, exec (.writeString col row text true) s = .next t ∧
      Raised s t (.glyphRange c) (.writeString col row text true) ∧
      Emitted s t (s.largeTextEvents row before col) (12 * before.length) ∧
      (∀ k < before.length, ∀ j < 3, ∀ n < 16,
        t.shadow.read (((row + (j : Nat)) * 128 + (col + (k : Nat)) * 16).toNat + n) =
          s.font16.read (64 * (before.getD k 0).toNat + 16 * j + n)) ∧
      (∀ a, (∀ j < 3, a < ((row + (j : Nat)) * 128 + col * 16).toNat ∨
        ((row + (j : Nat)) * 128 + col * 16).toNat + 16 * before.length ≤ a) → t.shadow.read a = s.shadow.read a) ∧
      t.cursor = (if before = [] then s.cursor else (row + 2) * 128 + 16 * (col + before.length)) ∧
      SameSession s t ∧ SameTables s t ∧ SameInputs s t

/-- 42_drawing, section 3 (derived by the spec): a large text at row 6 or 7 faults at page 8: the strips of the pages up to 7 are
sent and stand in the shadow, page 8 is positioned, and its data write raises `ShadowRange` before the transfer; every other byte
of the shadow is as before. -/
def Obligations.LargeTextLowRowsRaise : Prop :=
  ∀ (col row : Int) (text rest : List Byte) (c : Byte) (s : State), s.session = .active → 0 ≤ col → col < 8 →
    (row = 6 ∨ row = 7) → text = c :: rest → c.toNat < 128 →
    let strips := (8 - row).toNat
    ∃ t, exec (.writeString col row text true) s = .next t ∧
      Raised s t (.shadowRange (1024 + col * 16) 16) (.writeString col row text true) ∧
      (∀ k < strips, ∀ n < 16, t.shadow.read (((row + (k : Nat)) * 128 + col * 16).toNat + n) =
        s.font16.read (64 * c.toNat + 16 * k + n)) ∧
      (∀ a, (∀ k < strips, a < ((row + (k : Nat)) * 128 + col * 16).toNat ∨
        ((row + (k : Nat)) * 128 + col * 16).toNat + 16 ≤ a) → t.shadow.read a = s.shadow.read a) ∧
      t.cursor = 1024 + col * 16 ∧
      Emitted s t
        (((List.range strips).flatMap fun k =>
            s.positionEvents (col * 16) (row + (k : Nat)) ++ s.dataEvents (s.strip16Bytes c k)) ++
          s.positionEvents (col * 16) 8)
        (4 * strips + 3) ∧
      SameSession s t ∧ SameTables s t ∧ SameInputs s t

/-! ## Reset -/

/-- 10_state, section 6 and 70_reset, section 1: SESSION Uninitialized, HANDLE None, XFORM_COUNT 0, FAULT None, TRACE empty; the
memories hold the OPEN parameters (log 3), and the first request has not been taken (log 6). -/
def Obligations.ResetValues : Prop :=
  State.reset.session = .uninitialized ∧ State.reset.handle = none ∧ State.reset.xformCount = 0 ∧
  State.reset.fault = none ∧ State.reset.trace = [] ∧ State.reset.responses = [] ∧ State.reset.next = 0 ∧
  ∀ a : Nat, State.reset.shadow.read a = (cellAt Config.shadowInit a).getD 0 ∧
    State.reset.font8.read a = (cellAt Config.font8Init a).getD 0 ∧
    State.reset.font16.read a = (cellAt Config.font16Init a).getD 0

/-- 30_encoding, section 6 (response encoding: the spec's own decision D4): the bytes a host receives: 0x00 for 0, 0x01 for 1,
0xFF for -1, the two's complement byte of the code's value; none for SHUTDOWN in any state, for which RESPONSES records a `none`
(log 14). -/
def Obligations.ResponseBytes : Prop :=
  (∀ c : Code, responseBytes (some c) = [BitVec.ofInt 8 c.value]) ∧
  (responseBytes (some .zero) = [0x00] ∧ responseBytes (some .one) = [0x01] ∧ responseBytes (some .minusOne) = [0xFF]) ∧
  (∀ s : State, ∃ t, exec .shutdown s = .next t ∧ t.responses = s.responses ++ [none]) ∧ responseBytes none = []

/-! ## The whole machine -/

/-- The invariant (canonical memories within their sizes, the parameters' bounds, a handle exactly while Active, tables
transformed once a session was opened, responses counted by the index) is kept by every step. -/
def Obligations.StepKeepsInvariant : Prop :=
  ∀ s t : State, s.Inv → step s = .next t → t.Inv

/-- The invariant holds right after reset. -/
def Obligations.ResetInvariant : Prop := State.reset.Inv

/-- 10_state, sections 2 and 6: the session registers change only in an INIT that ends Active and in a SHUTDOWN from Active. -/
def Obligations.SessionWriters : Prop :=
  ∀ (i : Instr) (s t : State), exec i s = .next t →
    SameSession s t ∨
    (i.isInit = true ∧ s.session ≠ .active ∧ t.session = .active ∧ t.handle.isSome = true) ∨
    (i = .shutdown ∧ s.session = .active ∧ t.session = .closed ∧ t.handle = none ∧ t.kind = s.kind ∧
      t.dcLine = s.dcLine ∧ t.rstLine = s.rstLine)

/-- 41_font_transform, section 4, and 10_state, section 6: the glyph tables change only in a successful INIT, as the transform
says, and in the two transforms run on their own (log 7). -/
def Obligations.TableWriters : Prop :=
  ∀ (i : Instr) (s t : State), exec i s = .next t →
    SameTables s t ∨
    (i.isInit = true ∧ t.session = .active ∧ TablesAfterInit s t) ∨
    (i = .xform8 ∧ t.font16 = s.font16 ∧ t.xformCount = s.xformCount) ∨
    (i = .xform16 ∧ t.font8 = s.font8 ∧ t.xformCount = s.xformCount)

/-- 10_state, sections 2, 3 and 6: the shadow and the cursor change only in FILL, SET_PIXEL and WRITE_STRING while Active, and
in SET_CURSOR (the cursor alone) and WRITE_DATA run on their own (log 7); no instruction writes outside 0..1023. -/
def Obligations.ShadowWriters : Prop :=
  ∀ (i : Instr) (s t : State), exec i s = .next t →
    (∀ a, 1024 ≤ a → t.shadow.read a = s.shadow.read a) ∧
    (SameShadow s t ∨
      (s.session = .active ∧ ((∃ p, i = .fill p) ∨ (∃ x y c, i = .setPixel x y c) ∨
        ∃ col row text large, i = .writeString col row text large)) ∨
      (∃ c p, i = .setCursor c p ∧ t.shadow = s.shadow) ∨ ∃ b, i = .writeData b)

/-- 10_state R44: TRACE is empty after reset, events are only appended to it, and it is never shortened. -/
def Obligations.TraceOnlyGrows : Prop :=
  State.reset.trace = [] ∧ ∀ s t : State, step s = .next t → ∃ events, t.trace = s.trace ++ events

/-- No step changes the host's list of requests or the parameters. -/
def Obligations.InputsKept : Prop :=
  ∀ s t : State, step s = .next t → SameInputs s t

/-- 10_state, section 1 (the spec's own decision D31), and 60_exceptions, section 2: an instruction either returns, and then the
index of the next request advances by exactly one, or raises a fault, and then the index stays. -/
def Obligations.ReturnsOrRaises : Prop :=
  ∀ (i : Instr) (s t : State), exec i s = .next t → (∃ c, Returned s t c) ∨ ∃ cause, Raised s t cause i

/-- 60_exceptions, sections 2 and 7 (derived by the spec): a host request within the contract, with no INIT while Active, never
raises a fault: it returns. -/
def Obligations.InContractNeverRaises : Prop :=
  ∀ (i : Instr) (s : State), i.port = .host → i.inContract = true → (i.isInit = true → s.session ≠ .active) →
    ∃ t c, exec i s = .next t ∧ Returned s t c

/-- 20_memory, section 5 (the spec's own decision D14): the answers of the writes change nothing. Two states that differ only
in the answers to come end alike but for those, for every instruction but INIT, and for INIT too if its first four answers are
the same. -/
def Obligations.WriteAnswersIgnored : Prop :=
  ∀ (i : Instr) (s : State) (answers : List Answer) (n : Nat),
    (i.isInit = true → ∀ k < 4, State.answerAt { s with answers := answers, drawCount := n } k = s.answerAt k) →
    ∃ t t', exec i s = .next t ∧ exec i { s with answers := answers, drawCount := n } = .next t' ∧
      { t' with answers := t.answers, drawCount := t.drawCount } = t

/-- 70_reset, section 1 (derived by the spec): no host request reads the cursor before it writes it. Two states that differ only
in the cursor end alike but for the cursor. -/
def Obligations.CursorUnobservable : Prop :=
  ∀ (i : Instr) (s : State) (c : Int), i.port = .host →
    ∃ t t', exec i s = .next t ∧ exec i { s with cursor := c } = .next t' ∧ { t' with cursor := t.cursor } = t

/-- 60_exceptions, section 1 (derived by the spec): a request that returns 1 or -1 changes no state but the trace, and only INIT
adds events. -/
def Obligations.FailedRequestKeepsState : Prop :=
  ∀ (i : Instr) (s t : State) (c : Code), exec i s = .next t → t.responses = s.responses ++ [some c] → c ≠ .zero →
    SameSession s t ∧ SameTables s t ∧ SameShadow s t ∧ SameInputs s t ∧ Returned s t (some c) ∧
    (i.isInit = false → t.trace = s.trace)

end
end

