-- ==== Sys2Proof/Laws/Memory.lean ====
section
/-! SUPPORT. The laws of the byte memories: a read after a write, and that every operation keeps the canonical form. -/
namespace Sys2Proof.Machine

/-! ## Cells -/

theorem cellAt_insertCell (l : List Host.Cell) (a : Nat) (b : Byte) (x : Nat) :
    cellAt (insertCell l a b) x = if a = x then some b else cellAt l x := by
  induction l with
  | nil => rfl
  | cons c t ih =>
    obtain ⟨k, v⟩ := c
    by_cases h : a < k
    · simp [insertCell, h, cellAt]
    · by_cases hk : a = k
      · subst hk; by_cases hx : a = x <;> simp [insertCell, cellAt, hx]
      · by_cases hx : a = x
        · subst hx; simp [insertCell, h, hk, cellAt, ih, Ne.symm hk]
        · simp [insertCell, h, hk, cellAt, ih, hx]

theorem cellAt_eraseCell (l : List Host.Cell) (a x : Nat) :
    cellAt (eraseCell l a) x = if a = x then none else cellAt l x := by
  induction l with
  | nil => simp [eraseCell, cellAt]
  | cons c t ih =>
    obtain ⟨k, v⟩ := c
    by_cases hk : k = a
    · subst hk; by_cases hx : k = x <;> simp [eraseCell, cellAt, ih, hx]
      subst hx; rw [ih, if_pos rfl]
    · by_cases hx : a = x
      · subst hx; simp [eraseCell, hk, cellAt, ih]
      · simp [eraseCell, hk, cellAt, ih, hx]

/-- A cell of an inserted list is the new one or an old one. -/
theorem mem_insertCell {l : List Host.Cell} {a : Nat} {b : Byte} {c : Host.Cell} (h : c ∈ insertCell l a b) :
    c = (a, b) ∨ c ∈ l := by
  induction l with
  | nil => simpa [insertCell] using h
  | cons d t ih =>
    obtain ⟨k, v⟩ := d
    unfold insertCell at h
    split at h
    · simpa using h
    · split at h
      · simp only [List.mem_cons] at h ⊢; tauto
      · simp only [List.mem_cons] at h ⊢
        rcases h with h | h
        · tauto
        · rcases ih h with h | h <;> tauto

/-- A cell of an erased list is an old one. -/
theorem mem_eraseCell {l : List Host.Cell} {a : Nat} {c : Host.Cell} (h : c ∈ eraseCell l a) : c ∈ l := by
  induction l with
  | nil => exact h
  | cons d t ih =>
    obtain ⟨k, v⟩ := d
    unfold eraseCell at h
    split at h
    · exact List.mem_cons_of_mem _ (ih h)
    · simp only [List.mem_cons] at h ⊢
      rcases h with h | h
      · exact .inl h
      · exact .inr (ih h)

/-- Strictly rising indices. -/
abbrev Rising (l : List Host.Cell) : Prop := l.Pairwise fun c d => c.1 < d.1

theorem rising_insertCell {l : List Host.Cell} (a : Nat) (b : Byte) (h : Rising l) : Rising (insertCell l a b) := by
  induction l with
  | nil => simp [insertCell, Rising]
  | cons d t ih =>
    obtain ⟨k, v⟩ := d
    obtain ⟨hk, ht⟩ := List.pairwise_cons.mp h
    unfold insertCell
    split
    · refine List.pairwise_cons.mpr ⟨fun c hc => ?_, h⟩
      rcases List.mem_cons.mp hc with rfl | hc
      · assumption
      · have := hk c hc; simp only at this ⊢; omega
    · split
      · subst_vars; exact List.pairwise_cons.mpr ⟨hk, ht⟩
      · refine List.pairwise_cons.mpr ⟨fun c hc => ?_, ih ht⟩
        rcases mem_insertCell hc with rfl | hc
        · simp only; omega
        · exact hk c hc

theorem rising_eraseCell {l : List Host.Cell} (a : Nat) (h : Rising l) : Rising (eraseCell l a) := by
  induction l with
  | nil => exact h
  | cons d t ih =>
    obtain ⟨k, v⟩ := d
    obtain ⟨hk, ht⟩ := List.pairwise_cons.mp h
    unfold eraseCell
    split
    · exact ih ht
    · exact List.pairwise_cons.mpr ⟨fun c hc => hk c (mem_eraseCell hc), ih ht⟩

/-! ## Reading and writing -/

@[simp] theorem Memory.write_init (m : Memory) (a : Nat) (b : Byte) : (m.write a b).init = m.init := rfl
@[simp] theorem Memory.write_base (m : Memory) (a : Nat) (b : Byte) : (m.write a b).base = m.base := rfl

/-- A read after a write: the byte written, and every other byte as before. -/
theorem Memory.read_write (m : Memory) (a : Nat) (b : Byte) (x : Nat) :
    (m.write a b).read x = if a = x then b else m.read x := by
  unfold Memory.read
  rw [Memory.write_base]
  unfold Memory.write
  by_cases hb : b = m.base a
  · simp only [hb, if_true, cellAt_eraseCell]
    by_cases hx : a = x
    · subst hx; simp
    · simp [hx]
  · simp only [hb, if_false, cellAt_insertCell]
    by_cases hx : a = x <;> simp [hx]

@[simp] theorem Memory.writeBytes_init (m : Memory) (a : Nat) (l : List Byte) : (m.writeBytes a l).init = m.init := by
  induction l generalizing m a with
  | nil => rfl
  | cons b t ih => simp [Memory.writeBytes, ih]

/-- A read after several bytes were written from `a` on. -/
theorem Memory.read_writeBytes (m : Memory) (a : Nat) (l : List Byte) (x : Nat) :
    (m.writeBytes a l).read x = if a ≤ x ∧ x < a + l.length then l.getD (x - a) 0 else m.read x := by
  induction l generalizing m a with
  | nil => simp [Memory.writeBytes]
  | cons b t ih =>
    rw [Memory.writeBytes, ih, Memory.read_write]
    by_cases hx : a = x
    · subst hx; simp
    · by_cases h : a + 1 ≤ x ∧ x < a + 1 + t.length
      · have h' : a ≤ x ∧ x < a + (b :: t).length := by simp only [List.length_cons]; omega
        have hs : x - a = (x - (a + 1)) + 1 := by omega
        rw [if_pos h, if_pos h', hs, List.getD_cons_succ]
      · have h' : ¬(a ≤ x ∧ x < a + (b :: t).length) := by simp only [List.length_cons]; omega
        rw [if_neg h, if_neg h', if_neg hx]

@[simp] theorem Memory.length_readBytes (m : Memory) (a n : Nat) : (m.readBytes a n).length = n := by
  simp [Memory.readBytes]

theorem Memory.getD_readBytes (m : Memory) (a n k : Nat) (h : k < n) : (m.readBytes a n).getD k 0 = m.read (a + k) := by
  simp [Memory.readBytes, List.getD_eq_getElem?_getD, h]

/-! ## The canonical form -/

theorem Memory.wf_iff (size : Nat) (m : Memory) :
    m.wf size = true ↔ Rising m.cells ∧ ∀ c ∈ m.cells, c.1 < size ∧ c.2 ≠ m.base c.1 := by
  simp [Memory.wf, Rising, List.all_eq_true]

/-- A memory with nothing listed is in canonical form. -/
theorem Memory.wf_empty (size : Nat) (init : List Host.Cell) : Memory.wf size ⟨init, []⟩ = true := by
  simp [Memory.wf_iff, Rising]

theorem Memory.wf_write {size : Nat} {m : Memory} (a : Nat) (b : Byte) (ha : a < size) (h : m.wf size = true) :
    (m.write a b).wf size = true := by
  rw [Memory.wf_iff] at h ⊢
  obtain ⟨hr, hc⟩ := h
  rw [Memory.write_base]
  unfold Memory.write
  by_cases hb : b = m.base a
  · simp only [hb, if_true]
    exact ⟨rising_eraseCell a hr, fun c h => hc c (mem_eraseCell h)⟩
  · simp only [hb, if_false]
    refine ⟨rising_insertCell a b hr, fun c h => ?_⟩
    rcases mem_insertCell h with rfl | h
    · exact ⟨ha, hb⟩
    · exact hc c h

theorem Memory.wf_writeBytes {size : Nat} {m : Memory} (a : Nat) (l : List Byte) (ha : a + l.length ≤ size)
    (h : m.wf size = true) : (m.writeBytes a l).wf size = true := by
  induction l generalizing m a with
  | nil => exact h
  | cons b t ih =>
    simp only [List.length_cons] at ha
    exact ih (a + 1) (by omega) (Memory.wf_write a b (by omega) h)

/-! ## Rewriting a whole table -/

/-- An index below every index listed is not listed. -/
theorem cellAt_eq_none {l : List Host.Cell} {y : Nat} (h : ∀ c ∈ l, y < c.1) : cellAt l y = none := by
  induction l with
  | nil => rfl
  | cons d t ih =>
    obtain ⟨k, v⟩ := d
    have hk := h (k, v) (by simp)
    rw [cellAt, if_neg (by simp only at hk; omega)]
    exact ih fun c hc => h c (by simp [hc])

theorem cellAt_tabulateCells (base f : Nat → Byte) (rest : List Host.Cell) (n k x : Nat)
    (hrest : ∀ c ∈ rest, k + n ≤ c.1) :
    cellAt (tabulateCells base f rest n k) x =
      if k ≤ x ∧ x < k + n then (if f x = base x then none else some (f x)) else cellAt rest x := by
  induction n generalizing k with
  | zero => rw [if_neg (by omega)]; rfl
  | succ n ih =>
    have hih := ih (k + 1) fun c hc => by have := hrest c hc; omega
    by_cases hx : k = x
    · subst hx
      rw [if_pos (by omega)]
      have hnone : cellAt rest k = none := cellAt_eq_none fun c hc => by have := hrest c hc; omega
      by_cases hf : f k = base k
      · rw [tabulateCells, if_pos hf, hih, if_neg (by omega), hnone, if_pos hf]
      · rw [tabulateCells, if_neg hf, if_neg hf, cellAt, if_pos rfl]
    · have hstep : cellAt (tabulateCells base f rest (n + 1) k) x = cellAt (tabulateCells base f rest n (k + 1)) x := by
        by_cases hf : f k = base k
        · rw [tabulateCells, if_pos hf]
        · rw [tabulateCells, if_neg hf, cellAt, if_neg hx]
      rw [hstep, hih]
      by_cases h : k ≤ x ∧ x < k + (n + 1)
      · rw [if_pos h, if_pos (by omega)]
      · rw [if_neg h, if_neg (by omega)]

theorem cellAt_filter_ge (l : List Host.Cell) (n x : Nat) (hx : n ≤ x) :
    cellAt (l.filter fun c => decide (n ≤ c.1)) x = cellAt l x := by
  induction l with
  | nil => rfl
  | cons d t ih =>
    obtain ⟨k, v⟩ := d
    by_cases hk : n ≤ k
    · simp [hk, cellAt, ih]
    · have : k ≠ x := by omega
      simp [hk, cellAt, ih, this]

@[simp] theorem Memory.rewrite_base (m : Memory) (n : Nat) (f : Nat → Byte) : (m.rewrite n f).base = m.base := rfl

/-- A read after a table was rewritten. -/
theorem Memory.read_rewrite (m : Memory) (n : Nat) (f : Nat → Byte) (x : Nat) :
    (m.rewrite n f).read x = if x < n then f x else m.read x := by
  unfold Memory.read
  rw [Memory.rewrite_base]
  unfold Memory.rewrite
  rw [cellAt_tabulateCells _ _ _ _ _ _ (by simp)]
  by_cases hx : x < n
  · by_cases hf : f x = m.base x <;> simp [hx, hf]
  · simp [hx, cellAt_filter_ge _ _ _ (Nat.le_of_not_lt hx)]

/-- The cells of a table are rising, below its size, and differ from what they read as unlisted. -/
theorem tabulateCells_wf (base f : Nat → Byte) (n k : Nat) :
    Rising (tabulateCells base f [] n k) ∧
      ∀ c ∈ tabulateCells base f [] n k, k ≤ c.1 ∧ c.1 < k + n ∧ c.2 ≠ base c.1 := by
  induction n generalizing k with
  | zero => exact ⟨List.Pairwise.nil, by simp [tabulateCells]⟩
  | succ n ih =>
    obtain ⟨hr, hc⟩ := ih (k + 1)
    have hc' : ∀ c ∈ tabulateCells base f [] n (k + 1), k ≤ c.1 ∧ c.1 < k + (n + 1) ∧ c.2 ≠ base c.1 := fun c h =>
      ⟨by have := (hc c h).1; omega, by have := (hc c h).2.1; omega, (hc c h).2.2⟩
    by_cases hf : f k = base k
    · rw [tabulateCells, if_pos hf]; exact ⟨hr, hc'⟩
    · rw [tabulateCells, if_neg hf]
      refine ⟨List.pairwise_cons.mpr ⟨fun c h => by have := (hc c h).1; simp only; omega, hr⟩, fun c h => ?_⟩
      rcases List.mem_cons.mp h with rfl | h
      · exact ⟨Nat.le_refl k, by simp only; omega, hf⟩
      · exact hc' c h

theorem Memory.wf_rewrite {size : Nat} {m : Memory} (f : Nat → Byte) (h : m.wf size = true) :
    (m.rewrite size f).wf size = true := by
  rw [Memory.wf_iff] at h ⊢
  have hempty : (m.cells.filter fun c => decide (size ≤ c.1)) = [] := by
    rw [List.filter_eq_nil_iff]
    intro c hc
    have := (h.2 c hc).1
    simp only [decide_eq_true_eq]; omega
  rw [Memory.rewrite_base]
  unfold Memory.rewrite
  rw [hempty]
  obtain ⟨hr, hc⟩ := tabulateCells_wf m.base f size 0
  exact ⟨hr, fun c h => ⟨by have := (hc c h).2.1; omega, (hc c h).2.2⟩⟩

end Sys2Proof.Machine
end

