-- ==== Sys2Proof/Laws/Font.lean ====
section
/-! SUPPORT. The bits of the font transform (spec 41_font_transform R201, R204). -/
namespace Sys2Proof.Machine

theorem byteOfBits_getLsbD (f : Nat → Bool) {k : Nat} (hk : k < 8) : (byteOfBits f).getLsbD k = f k := by
  unfold byteOfBits
  have key : ∀ b0 b1 b2 b3 b4 b5 b6 b7 : Bool, ∀ j : Fin 8,
      (BitVec.ofNat 8 (b0.toNat + 2 * b1.toNat + 4 * b2.toNat + 8 * b3.toNat + 16 * b4.toNat + 32 * b5.toNat
        + 64 * b6.toNat + 128 * b7.toNat)).getLsbD j = [b0, b1, b2, b3, b4, b5, b6, b7].getD j false := by decide
  have h := key (f 0) (f 1) (f 2) (f 3) (f 4) (f 5) (f 6) (f 7) ⟨k, hk⟩
  simp only at h
  rw [h]
  interval_cases k <;> rfl

/-- Bit r of output byte k of ROT8 is bit 7 - k of input byte r (R201, R203). -/
theorem rot8Byte_getLsbD (g : Nat → Byte) (k : Nat) {r : Nat} (hr : r < 8) :
    (rot8Byte g k).getLsbD r = (g r).getLsbD (7 - k) := byteOfBits_getLsbD _ hr

/-- Two bytes with the same bits are the same. -/
theorem byte_ext {a b : Byte} (h : ∀ k < 8, a.getLsbD k = b.getLsbD k) : a = b :=
  BitVec.eq_of_getLsbD_eq fun k hk => h k hk

theorem byteOfBits_congr {f g : Nat → Bool} (h : ∀ k < 8, f k = g k) : byteOfBits f = byteOfBits g :=
  byte_ext fun k hk => by rw [byteOfBits_getLsbD f hk, byteOfBits_getLsbD g hk, h k hk]

@[simp] theorem length_rot8 (g : List Byte) : (rot8 g).length = 8 := by simp [rot8]
@[simp] theorem length_rot16 (t : List Byte) : (rot16 t).length = 16 := by simp [rot16]

theorem getD_rot8 (g : List Byte) {k : Nat} (hk : k < 8) :
    (rot8 g).getD k 0 = rot8Byte (fun r => g.getD r 0) k := by
  simp [rot8, List.getD_eq_getElem?_getD, hk]

theorem getD_rot16 (t : List Byte) {k : Nat} (hk : k < 16) :
    (rot16 t).getD k 0 = rot16Byte (fun r => t.getD r 0) k := by
  simp [rot16, List.getD_eq_getElem?_getD, hk]

/-- A byte of FONT8 after XFORM8 (R201). -/
theorem read_rotateFont8 (m : Memory) (a : Nat) :
    (rotateFont8 m).read a =
      if a < font8Size then rot8Byte (fun r => m.read (8 * (a / 8) + r)) (a % 8) else m.read a :=
  by unfold rotateFont8; exact Memory.read_rewrite m _ _ a

/-- A byte of FONT16 after XFORM16 (R204). -/
theorem read_rotateFont16 (m : Memory) (a : Nat) :
    (rotateFont16 m).read a =
      if a < font16Size then rot16Byte (fun r => m.read (16 * (a / 16) + r)) (a % 16) else m.read a :=
  by unfold rotateFont16; exact Memory.read_rewrite m _ _ a

theorem wf_rotateFont8 {m : Memory} (h : m.wf font8Size = true) : (rotateFont8 m).wf font8Size = true := by
  unfold rotateFont8; exact Memory.wf_rewrite _ h

theorem wf_rotateFont16 {m : Memory} (h : m.wf font16Size = true) : (rotateFont16 m).wf font16Size = true := by
  unfold rotateFont16; exact Memory.wf_rewrite _ h

end Sys2Proof.Machine
end

