-- ==== Sys2Proof/Laws/State.lean ====
section
/-! SUPPORT. One lemma per field per update of the state, so that no proof unfolds a record update. -/
namespace Sys2Proof.Machine

section
variable (s : State)

/-! ## ret -/

@[simp] theorem State.ret_session (code : Option Code) : (s.ret code).session = s.session := rfl
@[simp] theorem State.ret_kind (code : Option Code) : (s.ret code).kind = s.kind := rfl
@[simp] theorem State.ret_handle (code : Option Code) : (s.ret code).handle = s.handle := rfl
@[simp] theorem State.ret_dcLine (code : Option Code) : (s.ret code).dcLine = s.dcLine := rfl
@[simp] theorem State.ret_rstLine (code : Option Code) : (s.ret code).rstLine = s.rstLine := rfl
@[simp] theorem State.ret_cursor (code : Option Code) : (s.ret code).cursor = s.cursor := rfl
@[simp] theorem State.ret_xformCount (code : Option Code) : (s.ret code).xformCount = s.xformCount := rfl
@[simp] theorem State.ret_shadow (code : Option Code) : (s.ret code).shadow = s.shadow := rfl
@[simp] theorem State.ret_font8 (code : Option Code) : (s.ret code).font8 = s.font8 := rfl
@[simp] theorem State.ret_font16 (code : Option Code) : (s.ret code).font16 = s.font16 := rfl
@[simp] theorem State.ret_fault (code : Option Code) : (s.ret code).fault = s.fault := rfl
@[simp] theorem State.ret_trace (code : Option Code) : (s.ret code).trace = s.trace := rfl
@[simp] theorem State.ret_program (code : Option Code) : (s.ret code).program = s.program := rfl
@[simp] theorem State.ret_next (code : Option Code) : (s.ret code).next = s.next + 1 := rfl
@[simp] theorem State.ret_responses (code : Option Code) : (s.ret code).responses = s.responses ++ [code] := rfl
@[simp] theorem State.ret_answers (code : Option Code) : (s.ret code).answers = s.answers := rfl
@[simp] theorem State.ret_drawCount (code : Option Code) : (s.ret code).drawCount = s.drawCount := rfl
@[simp] theorem State.ret_params (code : Option Code) : (s.ret code).params = s.params := rfl

/-! ## raise -/

@[simp] theorem State.raise_session (c : FaultCause) (r : Payload) : (s.raise c r).session = s.session := rfl
@[simp] theorem State.raise_kind (c : FaultCause) (r : Payload) : (s.raise c r).kind = s.kind := rfl
@[simp] theorem State.raise_handle (c : FaultCause) (r : Payload) : (s.raise c r).handle = s.handle := rfl
@[simp] theorem State.raise_dcLine (c : FaultCause) (r : Payload) : (s.raise c r).dcLine = s.dcLine := rfl
@[simp] theorem State.raise_rstLine (c : FaultCause) (r : Payload) : (s.raise c r).rstLine = s.rstLine := rfl
@[simp] theorem State.raise_cursor (c : FaultCause) (r : Payload) : (s.raise c r).cursor = s.cursor := rfl
@[simp] theorem State.raise_xformCount (c : FaultCause) (r : Payload) : (s.raise c r).xformCount = s.xformCount := rfl
@[simp] theorem State.raise_shadow (c : FaultCause) (r : Payload) : (s.raise c r).shadow = s.shadow := rfl
@[simp] theorem State.raise_font8 (c : FaultCause) (r : Payload) : (s.raise c r).font8 = s.font8 := rfl
@[simp] theorem State.raise_font16 (c : FaultCause) (r : Payload) : (s.raise c r).font16 = s.font16 := rfl
@[simp] theorem State.raise_fault (c : FaultCause) (r : Payload) : (s.raise c r).fault = some ⟨c, r⟩ := rfl
@[simp] theorem State.raise_trace (c : FaultCause) (r : Payload) : (s.raise c r).trace = s.trace := rfl
@[simp] theorem State.raise_program (c : FaultCause) (r : Payload) : (s.raise c r).program = s.program := rfl
@[simp] theorem State.raise_next (c : FaultCause) (r : Payload) : (s.raise c r).next = s.next := rfl
@[simp] theorem State.raise_responses (c : FaultCause) (r : Payload) : (s.raise c r).responses = s.responses := rfl
@[simp] theorem State.raise_answers (c : FaultCause) (r : Payload) : (s.raise c r).answers = s.answers := rfl
@[simp] theorem State.raise_drawCount (c : FaultCause) (r : Payload) : (s.raise c r).drawCount = s.drawCount := rfl
@[simp] theorem State.raise_params (c : FaultCause) (r : Payload) : (s.raise c r).params = s.params := rfl

/-! ## emit -/

@[simp] theorem State.emit_session (e : Event) : (s.emit e).session = s.session := rfl
@[simp] theorem State.emit_kind (e : Event) : (s.emit e).kind = s.kind := rfl
@[simp] theorem State.emit_handle (e : Event) : (s.emit e).handle = s.handle := rfl
@[simp] theorem State.emit_dcLine (e : Event) : (s.emit e).dcLine = s.dcLine := rfl
@[simp] theorem State.emit_rstLine (e : Event) : (s.emit e).rstLine = s.rstLine := rfl
@[simp] theorem State.emit_cursor (e : Event) : (s.emit e).cursor = s.cursor := rfl
@[simp] theorem State.emit_xformCount (e : Event) : (s.emit e).xformCount = s.xformCount := rfl
@[simp] theorem State.emit_shadow (e : Event) : (s.emit e).shadow = s.shadow := rfl
@[simp] theorem State.emit_font8 (e : Event) : (s.emit e).font8 = s.font8 := rfl
@[simp] theorem State.emit_font16 (e : Event) : (s.emit e).font16 = s.font16 := rfl
@[simp] theorem State.emit_fault (e : Event) : (s.emit e).fault = s.fault := rfl
@[simp] theorem State.emit_trace (e : Event) : (s.emit e).trace = s.trace ++ [e] := rfl
@[simp] theorem State.emit_program (e : Event) : (s.emit e).program = s.program := rfl
@[simp] theorem State.emit_next (e : Event) : (s.emit e).next = s.next := rfl
@[simp] theorem State.emit_responses (e : Event) : (s.emit e).responses = s.responses := rfl
@[simp] theorem State.emit_answers (e : Event) : (s.emit e).answers = s.answers := rfl
@[simp] theorem State.emit_drawCount (e : Event) : (s.emit e).drawCount = s.drawCount := rfl
@[simp] theorem State.emit_params (e : Event) : (s.emit e).params = s.params := rfl

/-! ## drawn -/

@[simp] theorem State.drawn_session : (s.drawn).session = s.session := rfl
@[simp] theorem State.drawn_kind : (s.drawn).kind = s.kind := rfl
@[simp] theorem State.drawn_handle : (s.drawn).handle = s.handle := rfl
@[simp] theorem State.drawn_dcLine : (s.drawn).dcLine = s.dcLine := rfl
@[simp] theorem State.drawn_rstLine : (s.drawn).rstLine = s.rstLine := rfl
@[simp] theorem State.drawn_cursor : (s.drawn).cursor = s.cursor := rfl
@[simp] theorem State.drawn_xformCount : (s.drawn).xformCount = s.xformCount := rfl
@[simp] theorem State.drawn_shadow : (s.drawn).shadow = s.shadow := rfl
@[simp] theorem State.drawn_font8 : (s.drawn).font8 = s.font8 := rfl
@[simp] theorem State.drawn_font16 : (s.drawn).font16 = s.font16 := rfl
@[simp] theorem State.drawn_fault : (s.drawn).fault = s.fault := rfl
@[simp] theorem State.drawn_trace : (s.drawn).trace = s.trace := rfl
@[simp] theorem State.drawn_program : (s.drawn).program = s.program := rfl
@[simp] theorem State.drawn_next : (s.drawn).next = s.next := rfl
@[simp] theorem State.drawn_responses : (s.drawn).responses = s.responses := rfl
@[simp] theorem State.drawn_answers : (s.drawn).answers = s.answers.tail := rfl
@[simp] theorem State.drawn_drawCount : (s.drawn).drawCount = s.drawCount + 1 := rfl
@[simp] theorem State.drawn_params : (s.drawn).params = s.params := rfl

/-! ## called -/

@[simp] theorem State.called_session (e : Event) : (s.called e).session = s.session := rfl
@[simp] theorem State.called_kind (e : Event) : (s.called e).kind = s.kind := rfl
@[simp] theorem State.called_handle (e : Event) : (s.called e).handle = s.handle := rfl
@[simp] theorem State.called_dcLine (e : Event) : (s.called e).dcLine = s.dcLine := rfl
@[simp] theorem State.called_rstLine (e : Event) : (s.called e).rstLine = s.rstLine := rfl
@[simp] theorem State.called_cursor (e : Event) : (s.called e).cursor = s.cursor := rfl
@[simp] theorem State.called_xformCount (e : Event) : (s.called e).xformCount = s.xformCount := rfl
@[simp] theorem State.called_shadow (e : Event) : (s.called e).shadow = s.shadow := rfl
@[simp] theorem State.called_font8 (e : Event) : (s.called e).font8 = s.font8 := rfl
@[simp] theorem State.called_font16 (e : Event) : (s.called e).font16 = s.font16 := rfl
@[simp] theorem State.called_fault (e : Event) : (s.called e).fault = s.fault := rfl
@[simp] theorem State.called_trace (e : Event) : (s.called e).trace = s.trace ++ [e] := rfl
@[simp] theorem State.called_program (e : Event) : (s.called e).program = s.program := rfl
@[simp] theorem State.called_next (e : Event) : (s.called e).next = s.next := rfl
@[simp] theorem State.called_responses (e : Event) : (s.called e).responses = s.responses := rfl
@[simp] theorem State.called_answers (e : Event) : (s.called e).answers = s.answers.tail := rfl
@[simp] theorem State.called_drawCount (e : Event) : (s.called e).drawCount = s.drawCount + 1 := rfl
@[simp] theorem State.called_params (e : Event) : (s.called e).params = s.params := rfl

/-! ## xform8 -/

@[simp] theorem State.xform8_session : (s.xform8).session = s.session := rfl
@[simp] theorem State.xform8_kind : (s.xform8).kind = s.kind := rfl
@[simp] theorem State.xform8_handle : (s.xform8).handle = s.handle := rfl
@[simp] theorem State.xform8_dcLine : (s.xform8).dcLine = s.dcLine := rfl
@[simp] theorem State.xform8_rstLine : (s.xform8).rstLine = s.rstLine := rfl
@[simp] theorem State.xform8_cursor : (s.xform8).cursor = s.cursor := rfl
@[simp] theorem State.xform8_xformCount : (s.xform8).xformCount = s.xformCount := rfl
@[simp] theorem State.xform8_shadow : (s.xform8).shadow = s.shadow := rfl
@[simp] theorem State.xform8_font8 : (s.xform8).font8 = rotateFont8 s.font8 := rfl
@[simp] theorem State.xform8_font16 : (s.xform8).font16 = s.font16 := rfl
@[simp] theorem State.xform8_fault : (s.xform8).fault = s.fault := rfl
@[simp] theorem State.xform8_trace : (s.xform8).trace = s.trace := rfl
@[simp] theorem State.xform8_program : (s.xform8).program = s.program := rfl
@[simp] theorem State.xform8_next : (s.xform8).next = s.next := rfl
@[simp] theorem State.xform8_responses : (s.xform8).responses = s.responses := rfl
@[simp] theorem State.xform8_answers : (s.xform8).answers = s.answers := rfl
@[simp] theorem State.xform8_drawCount : (s.xform8).drawCount = s.drawCount := rfl
@[simp] theorem State.xform8_params : (s.xform8).params = s.params := rfl

/-! ## xform16 -/

@[simp] theorem State.xform16_session : (s.xform16).session = s.session := rfl
@[simp] theorem State.xform16_kind : (s.xform16).kind = s.kind := rfl
@[simp] theorem State.xform16_handle : (s.xform16).handle = s.handle := rfl
@[simp] theorem State.xform16_dcLine : (s.xform16).dcLine = s.dcLine := rfl
@[simp] theorem State.xform16_rstLine : (s.xform16).rstLine = s.rstLine := rfl
@[simp] theorem State.xform16_cursor : (s.xform16).cursor = s.cursor := rfl
@[simp] theorem State.xform16_xformCount : (s.xform16).xformCount = s.xformCount := rfl
@[simp] theorem State.xform16_shadow : (s.xform16).shadow = s.shadow := rfl
@[simp] theorem State.xform16_font8 : (s.xform16).font8 = s.font8 := rfl
@[simp] theorem State.xform16_font16 : (s.xform16).font16 = rotateFont16 s.font16 := rfl
@[simp] theorem State.xform16_fault : (s.xform16).fault = s.fault := rfl
@[simp] theorem State.xform16_trace : (s.xform16).trace = s.trace := rfl
@[simp] theorem State.xform16_program : (s.xform16).program = s.program := rfl
@[simp] theorem State.xform16_next : (s.xform16).next = s.next := rfl
@[simp] theorem State.xform16_responses : (s.xform16).responses = s.responses := rfl
@[simp] theorem State.xform16_answers : (s.xform16).answers = s.answers := rfl
@[simp] theorem State.xform16_drawCount : (s.xform16).drawCount = s.drawCount := rfl
@[simp] theorem State.xform16_params : (s.xform16).params = s.params := rfl

/-! ## resetPulse -/

@[simp] theorem State.resetPulse_session (line : Nat) : (s.resetPulse line).session = s.session := rfl
@[simp] theorem State.resetPulse_kind (line : Nat) : (s.resetPulse line).kind = s.kind := rfl
@[simp] theorem State.resetPulse_handle (line : Nat) : (s.resetPulse line).handle = s.handle := rfl
@[simp] theorem State.resetPulse_dcLine (line : Nat) : (s.resetPulse line).dcLine = s.dcLine := rfl
@[simp] theorem State.resetPulse_rstLine (line : Nat) : (s.resetPulse line).rstLine = s.rstLine := rfl
@[simp] theorem State.resetPulse_cursor (line : Nat) : (s.resetPulse line).cursor = s.cursor := rfl
@[simp] theorem State.resetPulse_xformCount (line : Nat) : (s.resetPulse line).xformCount = s.xformCount := rfl
@[simp] theorem State.resetPulse_shadow (line : Nat) : (s.resetPulse line).shadow = s.shadow := rfl
@[simp] theorem State.resetPulse_font8 (line : Nat) : (s.resetPulse line).font8 = s.font8 := rfl
@[simp] theorem State.resetPulse_font16 (line : Nat) : (s.resetPulse line).font16 = s.font16 := rfl
@[simp] theorem State.resetPulse_fault (line : Nat) : (s.resetPulse line).fault = s.fault := rfl
@[simp] theorem State.resetPulse_trace (line : Nat) : (s.resetPulse line).trace = s.trace ++ [.gpioWrite line false, .delay s.params.resetHoldMs, .gpioWrite line true] := by
  simp [State.resetPulse, State.emit]
@[simp] theorem State.resetPulse_program (line : Nat) : (s.resetPulse line).program = s.program := rfl
@[simp] theorem State.resetPulse_next (line : Nat) : (s.resetPulse line).next = s.next := rfl
@[simp] theorem State.resetPulse_responses (line : Nat) : (s.resetPulse line).responses = s.responses := rfl
@[simp] theorem State.resetPulse_answers (line : Nat) : (s.resetPulse line).answers = s.answers := rfl
@[simp] theorem State.resetPulse_drawCount (line : Nat) : (s.resetPulse line).drawCount = s.drawCount := rfl
@[simp] theorem State.resetPulse_params (line : Nat) : (s.resetPulse line).params = s.params := rfl

/-! ## transfer: one lemma says all it does -/

/-- A transfer appends its events and draws one answer; nothing else changes (R125, R126, R93). -/
theorem State.transfer_eq (ctrl : Byte) (level : Bool) (bytes : List Byte) :
    s.transfer ctrl level bytes =
      { s with trace := s.trace ++ s.transferEvents ctrl level bytes, answers := s.answers.tail,
               drawCount := s.drawCount + 1 } := by
  cases h : s.kind <;> simp [State.transfer, State.transferEvents, h, State.called, State.emit, State.drawn]

/-! ## writeCommand -/

/-- WRITE_COMMAND appends its transfer's events and draws one answer; nothing else changes (R160, R161). -/
theorem State.writeCommand_eq (bytes : List Byte) :
    s.writeCommand bytes =
      { s with trace := s.trace ++ s.commandEvents bytes, answers := s.answers.tail,
               drawCount := s.drawCount + 1 } := State.transfer_eq s _ _ _

@[simp] theorem State.writeCommand_session (bytes : List Byte) : (s.writeCommand bytes).session = s.session := by
  rw [State.writeCommand_eq]
@[simp] theorem State.writeCommand_kind (bytes : List Byte) : (s.writeCommand bytes).kind = s.kind := by
  rw [State.writeCommand_eq]
@[simp] theorem State.writeCommand_handle (bytes : List Byte) : (s.writeCommand bytes).handle = s.handle := by
  rw [State.writeCommand_eq]
@[simp] theorem State.writeCommand_dcLine (bytes : List Byte) : (s.writeCommand bytes).dcLine = s.dcLine := by
  rw [State.writeCommand_eq]
@[simp] theorem State.writeCommand_rstLine (bytes : List Byte) : (s.writeCommand bytes).rstLine = s.rstLine := by
  rw [State.writeCommand_eq]
@[simp] theorem State.writeCommand_cursor (bytes : List Byte) : (s.writeCommand bytes).cursor = s.cursor := by
  rw [State.writeCommand_eq]
@[simp] theorem State.writeCommand_xformCount (bytes : List Byte) : (s.writeCommand bytes).xformCount = s.xformCount := by
  rw [State.writeCommand_eq]
@[simp] theorem State.writeCommand_shadow (bytes : List Byte) : (s.writeCommand bytes).shadow = s.shadow := by
  rw [State.writeCommand_eq]
@[simp] theorem State.writeCommand_font8 (bytes : List Byte) : (s.writeCommand bytes).font8 = s.font8 := by
  rw [State.writeCommand_eq]
@[simp] theorem State.writeCommand_font16 (bytes : List Byte) : (s.writeCommand bytes).font16 = s.font16 := by
  rw [State.writeCommand_eq]
@[simp] theorem State.writeCommand_fault (bytes : List Byte) : (s.writeCommand bytes).fault = s.fault := by
  rw [State.writeCommand_eq]
@[simp] theorem State.writeCommand_trace (bytes : List Byte) : (s.writeCommand bytes).trace = s.trace ++ s.commandEvents bytes := by
  rw [State.writeCommand_eq]
@[simp] theorem State.writeCommand_program (bytes : List Byte) : (s.writeCommand bytes).program = s.program := by
  rw [State.writeCommand_eq]
@[simp] theorem State.writeCommand_next (bytes : List Byte) : (s.writeCommand bytes).next = s.next := by
  rw [State.writeCommand_eq]
@[simp] theorem State.writeCommand_responses (bytes : List Byte) : (s.writeCommand bytes).responses = s.responses := by
  rw [State.writeCommand_eq]
@[simp] theorem State.writeCommand_answers (bytes : List Byte) : (s.writeCommand bytes).answers = s.answers.tail := by
  rw [State.writeCommand_eq]
@[simp] theorem State.writeCommand_drawCount (bytes : List Byte) : (s.writeCommand bytes).drawCount = s.drawCount + 1 := by
  rw [State.writeCommand_eq]
@[simp] theorem State.writeCommand_params (bytes : List Byte) : (s.writeCommand bytes).params = s.params := by
  rw [State.writeCommand_eq]

/-! ## The events of a transfer depend on the session registers and the parameters alone -/

theorem State.commandEvents_congr {s t : State} (hk : t.kind = s.kind) (hh : t.handle = s.handle)
    (hd : t.dcLine = s.dcLine) (hp : t.params = s.params) (bytes : List Byte) :
    t.commandEvents bytes = s.commandEvents bytes := by
  simp [State.commandEvents, State.transferEvents, hk, hh, hd, hp]

theorem State.dataEvents_congr {s t : State} (hk : t.kind = s.kind) (hh : t.handle = s.handle)
    (hd : t.dcLine = s.dcLine) (hp : t.params = s.params) (bytes : List Byte) :
    t.dataEvents bytes = s.dataEvents bytes := by
  simp [State.dataEvents, State.transferEvents, hk, hh, hd, hp]

@[simp] theorem State.writeCommand_commandEvents (bytes more : List Byte) :
    (s.writeCommand bytes).commandEvents more = s.commandEvents more :=
  State.commandEvents_congr (by simp) (by simp) (by simp) (by simp) more

/-! ## setCursor -/

@[simp] theorem State.setCursor_session (column page : Int) : (s.setCursor column page).session = s.session := by
  simp [State.setCursor]
@[simp] theorem State.setCursor_kind (column page : Int) : (s.setCursor column page).kind = s.kind := by
  simp [State.setCursor]
@[simp] theorem State.setCursor_handle (column page : Int) : (s.setCursor column page).handle = s.handle := by
  simp [State.setCursor]
@[simp] theorem State.setCursor_dcLine (column page : Int) : (s.setCursor column page).dcLine = s.dcLine := by
  simp [State.setCursor]
@[simp] theorem State.setCursor_rstLine (column page : Int) : (s.setCursor column page).rstLine = s.rstLine := by
  simp [State.setCursor]
@[simp] theorem State.setCursor_cursor (column page : Int) : (s.setCursor column page).cursor = cursorOf column page := by
  simp [State.setCursor]
@[simp] theorem State.setCursor_xformCount (column page : Int) : (s.setCursor column page).xformCount = s.xformCount := by
  simp [State.setCursor]
@[simp] theorem State.setCursor_shadow (column page : Int) : (s.setCursor column page).shadow = s.shadow := by
  simp [State.setCursor]
@[simp] theorem State.setCursor_font8 (column page : Int) : (s.setCursor column page).font8 = s.font8 := by
  simp [State.setCursor]
@[simp] theorem State.setCursor_font16 (column page : Int) : (s.setCursor column page).font16 = s.font16 := by
  simp [State.setCursor]
@[simp] theorem State.setCursor_fault (column page : Int) : (s.setCursor column page).fault = s.fault := by
  simp [State.setCursor]
@[simp] theorem State.setCursor_trace (column page : Int) : (s.setCursor column page).trace = s.trace ++ (s.commandEvents [pageCmd page] ++ s.commandEvents [colLoCmd column] ++ s.commandEvents [colHiCmd column]) := by
  simp [State.setCursor]
@[simp] theorem State.setCursor_program (column page : Int) : (s.setCursor column page).program = s.program := by
  simp [State.setCursor]
@[simp] theorem State.setCursor_next (column page : Int) : (s.setCursor column page).next = s.next := by
  simp [State.setCursor]
@[simp] theorem State.setCursor_responses (column page : Int) : (s.setCursor column page).responses = s.responses := by
  simp [State.setCursor]
@[simp] theorem State.setCursor_answers (column page : Int) : (s.setCursor column page).answers = s.answers.drop 3 := by
  simp [State.setCursor, ← List.drop_one]
@[simp] theorem State.setCursor_drawCount (column page : Int) : (s.setCursor column page).drawCount = s.drawCount + 3 := by
  simp [State.setCursor]
@[simp] theorem State.setCursor_params (column page : Int) : (s.setCursor column page).params = s.params := by
  simp [State.setCursor]

/-! ## xform -/

/-- XFORM rewrites both tables and counts it, unless the guarded variant skips it (R200). -/
theorem State.xform_eq :
    s.xform = if s.params.xformOnce = true ∧ 0 < s.xformCount then s
      else { s with font8 := rotateFont8 s.font8, font16 := rotateFont16 s.font16, xformCount := s.xformCount + 1 } := by
  by_cases h : s.params.xformOnce = true ∧ 0 < s.xformCount <;> simp [State.xform, h, State.xform8, State.xform16]

@[simp] theorem State.xform_session : s.xform.session = s.session := by
  rw [State.xform_eq]; split <;> rfl
@[simp] theorem State.xform_kind : s.xform.kind = s.kind := by
  rw [State.xform_eq]; split <;> rfl
@[simp] theorem State.xform_handle : s.xform.handle = s.handle := by
  rw [State.xform_eq]; split <;> rfl
@[simp] theorem State.xform_dcLine : s.xform.dcLine = s.dcLine := by
  rw [State.xform_eq]; split <;> rfl
@[simp] theorem State.xform_rstLine : s.xform.rstLine = s.rstLine := by
  rw [State.xform_eq]; split <;> rfl
@[simp] theorem State.xform_cursor : s.xform.cursor = s.cursor := by
  rw [State.xform_eq]; split <;> rfl
@[simp] theorem State.xform_shadow : s.xform.shadow = s.shadow := by
  rw [State.xform_eq]; split <;> rfl
@[simp] theorem State.xform_fault : s.xform.fault = s.fault := by
  rw [State.xform_eq]; split <;> rfl
@[simp] theorem State.xform_trace : s.xform.trace = s.trace := by
  rw [State.xform_eq]; split <;> rfl
@[simp] theorem State.xform_program : s.xform.program = s.program := by
  rw [State.xform_eq]; split <;> rfl
@[simp] theorem State.xform_next : s.xform.next = s.next := by
  rw [State.xform_eq]; split <;> rfl
@[simp] theorem State.xform_responses : s.xform.responses = s.responses := by
  rw [State.xform_eq]; split <;> rfl
@[simp] theorem State.xform_answers : s.xform.answers = s.answers := by
  rw [State.xform_eq]; split <;> rfl
@[simp] theorem State.xform_drawCount : s.xform.drawCount = s.drawCount := by
  rw [State.xform_eq]; split <;> rfl
@[simp] theorem State.xform_params : s.xform.params = s.params := by
  rw [State.xform_eq]; split <;> rfl

/-! ## commitSession -/

@[simp] theorem State.commitSession_session (handle : Nat) (strobed : Bool) (dcLine resetLine : Nat) :
    (s.commitSession handle strobed dcLine resetLine).session = s.session := by
  cases strobed <;> rfl
@[simp] theorem State.commitSession_kind (handle : Nat) (strobed : Bool) (dcLine resetLine : Nat) :
    (s.commitSession handle strobed dcLine resetLine).kind = if strobed then .strobed else .addressed := by
  cases strobed <;> rfl
@[simp] theorem State.commitSession_handle (handle : Nat) (strobed : Bool) (dcLine resetLine : Nat) :
    (s.commitSession handle strobed dcLine resetLine).handle = some handle := by
  cases strobed <;> rfl
@[simp] theorem State.commitSession_dcLine (handle : Nat) (strobed : Bool) (dcLine resetLine : Nat) :
    (s.commitSession handle strobed dcLine resetLine).dcLine = if strobed then dcLine else s.dcLine := by
  cases strobed <;> rfl
@[simp] theorem State.commitSession_rstLine (handle : Nat) (strobed : Bool) (dcLine resetLine : Nat) :
    (s.commitSession handle strobed dcLine resetLine).rstLine = if strobed then resetLine else s.rstLine := by
  cases strobed <;> rfl
@[simp] theorem State.commitSession_cursor (handle : Nat) (strobed : Bool) (dcLine resetLine : Nat) :
    (s.commitSession handle strobed dcLine resetLine).cursor = s.cursor := by
  cases strobed <;> rfl
@[simp] theorem State.commitSession_xformCount (handle : Nat) (strobed : Bool) (dcLine resetLine : Nat) :
    (s.commitSession handle strobed dcLine resetLine).xformCount = s.xformCount := by
  cases strobed <;> rfl
@[simp] theorem State.commitSession_shadow (handle : Nat) (strobed : Bool) (dcLine resetLine : Nat) :
    (s.commitSession handle strobed dcLine resetLine).shadow = s.shadow := by
  cases strobed <;> rfl
@[simp] theorem State.commitSession_font8 (handle : Nat) (strobed : Bool) (dcLine resetLine : Nat) :
    (s.commitSession handle strobed dcLine resetLine).font8 = s.font8 := by
  cases strobed <;> rfl
@[simp] theorem State.commitSession_font16 (handle : Nat) (strobed : Bool) (dcLine resetLine : Nat) :
    (s.commitSession handle strobed dcLine resetLine).font16 = s.font16 := by
  cases strobed <;> rfl
@[simp] theorem State.commitSession_fault (handle : Nat) (strobed : Bool) (dcLine resetLine : Nat) :
    (s.commitSession handle strobed dcLine resetLine).fault = s.fault := by
  cases strobed <;> rfl
@[simp] theorem State.commitSession_trace (handle : Nat) (strobed : Bool) (dcLine resetLine : Nat) :
    (s.commitSession handle strobed dcLine resetLine).trace = s.trace := by
  cases strobed <;> rfl
@[simp] theorem State.commitSession_program (handle : Nat) (strobed : Bool) (dcLine resetLine : Nat) :
    (s.commitSession handle strobed dcLine resetLine).program = s.program := by
  cases strobed <;> rfl
@[simp] theorem State.commitSession_next (handle : Nat) (strobed : Bool) (dcLine resetLine : Nat) :
    (s.commitSession handle strobed dcLine resetLine).next = s.next := by
  cases strobed <;> rfl
@[simp] theorem State.commitSession_responses (handle : Nat) (strobed : Bool) (dcLine resetLine : Nat) :
    (s.commitSession handle strobed dcLine resetLine).responses = s.responses := by
  cases strobed <;> rfl
@[simp] theorem State.commitSession_answers (handle : Nat) (strobed : Bool) (dcLine resetLine : Nat) :
    (s.commitSession handle strobed dcLine resetLine).answers = s.answers := by
  cases strobed <;> rfl
@[simp] theorem State.commitSession_drawCount (handle : Nat) (strobed : Bool) (dcLine resetLine : Nat) :
    (s.commitSession handle strobed dcLine resetLine).drawCount = s.drawCount := by
  cases strobed <;> rfl
@[simp] theorem State.commitSession_params (handle : Nat) (strobed : Bool) (dcLine resetLine : Nat) :
    (s.commitSession handle strobed dcLine resetLine).params = s.params := by
  cases strobed <;> rfl

end

end Sys2Proof.Machine
end

