-- ==== Sys2Proof/Laws/Ops.lean ====
section
/-! SUPPORT. One lemma for each shared operation of a request: what it emits, what it writes, and that it leaves the rest.
`Inside` is the frame of an operation inside a request. -/
namespace Sys2Proof.Machine

/-! ## The frame of an operation inside a request -/

/-- Between two points inside a request: the events emitted, the answers drawn, and everything but shadow and cursor
unchanged. -/
structure Inside (s t : State) (events : List Event) (calls : Nat) : Prop where
  session : SameSession s t
  tables : SameTables s t
  inputs : SameInputs s t
  emitted : Emitted s t events calls
  responses : t.responses = s.responses
  next : t.next = s.next
  fault : t.fault = s.fault

theorem Inside.refl (s : State) : Inside s s [] 0 :=
  ⟨⟨rfl, rfl, rfl, rfl, rfl⟩, ⟨rfl, rfl, rfl⟩, ⟨rfl, rfl⟩, ⟨by simp, by simp, by simp⟩, rfl, rfl, rfl⟩

theorem Inside.trans {s t u : State} {e e' : List Event} {n n' : Nat} (h : Inside s t e n) (h' : Inside t u e' n') :
    Inside s u (e ++ e') (n + n') where
  session := by
    constructor <;> simp [h.session.1, h.session.2, h.session.3, h.session.4, h.session.5,
      h'.session.1, h'.session.2, h'.session.3, h'.session.4, h'.session.5]
  tables := by
    constructor <;> simp [h.tables.1, h.tables.2, h.tables.3, h'.tables.1, h'.tables.2, h'.tables.3]
  inputs := by constructor <;> simp [h.inputs.1, h.inputs.2, h'.inputs.1, h'.inputs.2]
  emitted := by
    constructor <;> simp [h.emitted.1, h.emitted.2, h.emitted.3, h'.emitted.1, h'.emitted.2, h'.emitted.3, Nat.add_assoc]
  responses := h'.responses.trans h.responses
  next := h'.next.trans h.next
  fault := h'.fault.trans h.fault

/-- Inside a request the same bytes make the same events. -/
theorem Inside.commandEvents {s t : State} {e : List Event} {n : Nat} (h : Inside s t e n) (bytes : List Byte) :
    t.commandEvents bytes = s.commandEvents bytes :=
  State.commandEvents_congr h.session.kind h.session.handle h.session.dcLine h.inputs.params bytes

theorem Inside.dataEvents {s t : State} {e : List Event} {n : Nat} (h : Inside s t e n) (bytes : List Byte) :
    t.dataEvents bytes = s.dataEvents bytes :=
  State.dataEvents_congr h.session.kind h.session.handle h.session.dcLine h.inputs.params bytes

theorem Inside.positionEvents {s t : State} {e : List Event} {n : Nat} (h : Inside s t e n) (column page : Int) :
    t.positionEvents column page = s.positionEvents column page := by
  simp [State.positionEvents, h.commandEvents]

theorem Inside.glyph8 {s t : State} {e : List Event} {n : Nat} (h : Inside s t e n) (c : Byte) :
    t.glyph8 c = s.glyph8 c := by simp [State.glyph8, h.tables.font8]

theorem Inside.strip16 {s t : State} {e : List Event} {n : Nat} (h : Inside s t e n) (c : Byte) (k : Nat) :
    t.strip16 c k = s.strip16 c k := by simp [State.strip16, h.tables.font16]

/-- The bytes a statement names are those the drawing operations read (20_memory R74, R75). -/
theorem State.glyph8Bytes_eq (s : State) (c : Byte) : s.glyph8Bytes c = s.glyph8 c := rfl
theorem State.strip16Bytes_eq (s : State) (c : Byte) (k : Nat) : s.strip16Bytes c k = s.strip16 c k := rfl

/-! ## The sequencer's operations -/

theorem inside_writeCommand (s : State) (bytes : List Byte) :
    Inside s (s.writeCommand bytes) (s.commandEvents bytes) 1 := by
  refine ⟨⟨?_, ?_, ?_, ?_, ?_⟩, ⟨?_, ?_, ?_⟩, ⟨?_, ?_⟩, ⟨?_, ?_, ?_⟩, ?_, ?_, ?_⟩ <;> simp

/-- SET_CURSOR: three command transfers and the cursor (R166). -/
theorem inside_setCursor (s : State) (column page : Int) :
    Inside s (s.setCursor column page) (s.positionEvents column page) 3 := by
  refine ⟨⟨?_, ?_, ?_, ?_, ?_⟩, ⟨?_, ?_, ?_⟩, ⟨?_, ?_⟩, ⟨?_, ?_, ?_⟩, ?_, ?_, ?_⟩ <;> simp [State.positionEvents]

/-- WRITE_DATA in range: the transfer, the shadow copy, the cursor's advance (R170, R172). -/
theorem writeData_go (s : State) (bytes : List Byte) (h : shadowInRange s.cursor bytes.length = true) :
    ∃ t, s.writeData bytes = .go t ∧ Inside s t (s.dataEvents bytes) 1 ∧
      t.shadow = s.shadow.writeBytes s.cursor.toNat bytes ∧ t.cursor = s.cursor + bytes.length := by
  refine ⟨_, by rw [State.writeData, if_pos h], ?_, rfl, rfl⟩
  rw [State.transfer_eq]
  refine ⟨⟨?_, ?_, ?_, ?_, ?_⟩, ⟨?_, ?_, ?_⟩, ⟨?_, ?_⟩, ⟨?_, ?_, ?_⟩, ?_, ?_, ?_⟩ <;> simp [State.dataEvents]

/-- WRITE_DATA out of range: `ShadowRange` before the transfer (R171). -/
theorem writeData_raised (s : State) (bytes : List Byte) (h : shadowInRange s.cursor bytes.length = false) :
    s.writeData bytes = .raised (.shadowRange s.cursor bytes.length) s := by
  rw [State.writeData, if_neg (by simp [h])]

theorem shadowInRange_iff (start : Int) (len : Nat) :
    shadowInRange start len = true ↔ 0 ≤ start ∧ start + len ≤ 1024 := by
  unfold shadowInRange
  rw [Bool.and_eq_true, decide_eq_true_iff, decide_eq_true_iff]
  rfl

/-! ## Sequencing -/

/-- The state an operation stopped at. -/
def Flow.state : Flow → State
  | .go s => s
  | .raised _ s => s

@[simp] theorem Flow.state_go (s : State) : (Flow.go s).state = s := rfl
@[simp] theorem Flow.state_raised (c : FaultCause) (s : State) : (Flow.raised c s).state = s := rfl
@[simp] theorem Flow.andThen_go (s : State) (k : State → Flow) : (Flow.go s).andThen k = k s := rfl
@[simp] theorem Flow.andThen_raised (c : FaultCause) (s : State) (k : State → Flow) :
    (Flow.raised c s).andThen k = .raised c s := rfl
@[simp] theorem Flow.finish_go (s : State) (i : Instr) (code : Option Code) : (Flow.go s).finish i code = s.ret code := rfl
@[simp] theorem Flow.finish_raised (c : FaultCause) (s : State) (i : Instr) (code : Option Code) :
    (Flow.raised c s).finish i code = s.raise c (.record i) := rfl

/-- What holds after an operation and is kept by the next one holds after both. -/
theorem Flow.andThen_keeps {P : State → Prop} {x : Flow} {k : State → Flow} (hx : P x.state)
    (hk : ∀ s, P s → P (k s).state) : P (x.andThen k).state := by
  cases x with
  | go s => exact hk s hx
  | raised c s => exact hx

/-- The end of a request: a return or a raise at the state the operation stopped at. -/
theorem Flow.finish_cases (x : Flow) (i : Instr) (code : Option Code) :
    x.finish i code = x.state.ret code ∨ ∃ c, x.finish i code = x.state.raise c (.record i) := by
  cases x with
  | go s => exact .inl rfl
  | raised c s => exact .inr ⟨c, rfl⟩

/-! ## What every drawing operation keeps -/

/-- A property of states that the sequencer's two operations keep. -/
structure KeptBySequencer (P : State → Prop) : Prop where
  setCursor : ∀ s column page, P s → P (s.setCursor column page)
  writeData : ∀ s bytes, P s → P (s.writeData bytes).state

theorem KeptBySequencer.fillPages {P : State → Prop} (h : KeptBySequencer P) (pattern : Byte) (pages : List Nat)
    (s : State) (hs : P s) : P (fillPages pattern pages s).state := by
  induction pages generalizing s with
  | nil => exact hs
  | cons p ps ih => exact Flow.andThen_keeps (h.writeData _ _ (h.setCursor _ _ _ hs)) fun t ht => ih t ht

theorem KeptBySequencer.drawPixel {P : State → Prop} (h : KeptBySequencer P) (x y : Int) (color : Byte) (s : State)
    (hs : P s) : P (s.drawPixel x y color).state := by
  unfold State.drawPixel
  split
  · exact hs
  · simp only
    split
    · exact hs
    · exact h.writeData _ _ (h.setCursor _ _ _ hs)

theorem KeptBySequencer.drawSmall {P : State → Prop} (h : KeptBySequencer P) (text : List Byte) (s : State)
    (hs : P s) : P (drawSmall text s).state := by
  induction text generalizing s with
  | nil => exact hs
  | cons c t ih => exact Flow.andThen_keeps (h.writeData _ _ hs) fun u hu => ih u hu

theorem KeptBySequencer.drawStrip {P : State → Prop} (h : KeptBySequencer P) (c : Byte) (cell row : Int) (k : Nat)
    (s : State) (hs : P s) : P (drawStrip c cell row k s).state := h.writeData _ _ (h.setCursor _ _ _ hs)

theorem KeptBySequencer.drawLargeGlyph {P : State → Prop} (h : KeptBySequencer P) (c : Byte) (cell row : Int)
    (s : State) (hs : P s) : P (drawLargeGlyph c cell row s).state := by
  unfold Sys2Proof.Machine.drawLargeGlyph
  split
  · exact hs
  · exact Flow.andThen_keeps (Flow.andThen_keeps (h.drawStrip c cell row 0 s hs) fun t ht => h.drawStrip c cell row 1 t ht)
      fun t ht => h.drawStrip c cell row 2 t ht

theorem KeptBySequencer.drawLarge {P : State → Prop} (h : KeptBySequencer P) (row : Int) (text : List Byte) (cell : Int)
    (s : State) (hs : P s) : P (drawLarge row text cell s).state := by
  induction text generalizing s cell with
  | nil => exact hs
  | cons c t ih => exact Flow.andThen_keeps (h.drawLargeGlyph c cell row s hs) fun u hu => ih (cell + 1) u hu

theorem KeptBySequencer.drawText {P : State → Prop} (h : KeptBySequencer P) (col row : Int) (text : List Byte)
    (large : Bool) (s : State) (hs : P s) : P (s.drawText col row text large).state := by
  unfold State.drawText
  split
  · exact h.drawLarge row text col s hs
  · exact h.drawSmall text _ (h.setCursor _ _ _ hs)

/-- Some events were emitted, and only shadow and cursor may differ besides: every drawing operation keeps it. -/
theorem keptBySequencer_inside (s : State) : KeptBySequencer fun t => ∃ e n, Inside s t e n where
  setCursor := fun t c p ⟨e, n, h⟩ => ⟨_, _, h.trans (inside_setCursor t c p)⟩
  writeData := fun t b ⟨e, n, h⟩ => by
    by_cases hr : shadowInRange t.cursor b.length = true
    · obtain ⟨u, hu, hi, -, -⟩ := writeData_go t b hr
      exact ⟨_, _, by rw [hu]; exact h.trans hi⟩
    · rw [writeData_raised t b (by simpa using hr)]; exact ⟨e, n, h⟩

/-- The shadow's canonical form: every drawing operation keeps it. -/
theorem keptBySequencer_wf : KeptBySequencer fun t => t.shadow.wf shadowSize = true where
  setCursor := fun t c p h => by simpa using h
  writeData := fun t b h => by
    by_cases hr : shadowInRange t.cursor b.length = true
    · obtain ⟨u, hu, -, hs, -⟩ := writeData_go t b hr
      obtain ⟨h0, h1⟩ := (shadowInRange_iff _ _).mp hr
      rw [hu, Flow.state_go, hs]
      exact Memory.wf_writeBytes _ _ (by simp only [shadowSize]; omega) h
    · rw [writeData_raised t b (by simpa using hr)]; exact h

end Sys2Proof.Machine
end

