-- ==== Sys2Proof/Laws/Drawing.lean ====
section
/-! SUPPORT. What the operations of the drawing requests do where they are in range: what they emit, and every byte of the
shadow after them (spec 42_drawing R230 to R242). -/
namespace Sys2Proof.Machine

/-- A position and a data write in range (R166, R170). -/
theorem setCursor_writeData_go (s : State) (c p : Int) (b : List Byte) (h0 : 0 ≤ p * 128 + c)
    (h1 : p * 128 + c + b.length ≤ 1024) :
    ∃ t, (s.setCursor c p).writeData b = .go t ∧ Inside s t (s.positionEvents c p ++ s.dataEvents b) 4 ∧
      t.shadow = s.shadow.writeBytes (p * 128 + c).toNat b ∧ t.cursor = p * 128 + c + b.length := by
  have hc : (s.setCursor c p).cursor = p * 128 + c := by simp [cursorOf, displayWidth]
  obtain ⟨t, ht, hi, hs, hcc⟩ :=
    writeData_go (s.setCursor c p) b (by rw [hc]; exact (shadowInRange_iff _ _).mpr ⟨h0, h1⟩)
  have hp := inside_setCursor s c p
  refine ⟨t, ht, ?_, by rw [hs, hc]; simp, by rw [hcc, hc]⟩
  rw [hp.dataEvents] at hi
  exact hp.trans hi

/-- A position and a data write past the end of the shadow: positioned, then `ShadowRange` (R171). -/
theorem setCursor_writeData_raised (s : State) (c p : Int) (b : List Byte) (h : 1024 < p * 128 + c + b.length) :
    (s.setCursor c p).writeData b = .raised (.shadowRange (p * 128 + c) b.length) (s.setCursor c p) := by
  have hc : (s.setCursor c p).cursor = p * 128 + c := by simp [cursorOf, displayWidth]
  rw [writeData_raised _ _ (by
    rw [Bool.eq_false_iff]; intro hh
    have := (shadowInRange_iff _ _).mp hh
    rw [hc] at this; omega), hc]

/-- FILL's pages from `k` to 7 (R230). -/
theorem fillPages_go (pattern : Byte) (n k : Nat) (hk : k + n = 8) (s : State) :
    ∃ t, fillPages pattern (List.range' k n) s = .go t ∧
      Inside s t ((List.range' k n).flatMap fun p =>
        s.positionEvents 0 (p : Nat) ++ s.dataEvents (List.replicate 128 pattern)) (4 * n) ∧
      (∀ a, t.shadow.read a = if 128 * k ≤ a ∧ a < 1024 then pattern else s.shadow.read a) ∧
      (0 < n → t.cursor = 1024) := by
  induction n generalizing k s with
  | zero => exact ⟨s, rfl, Inside.refl s, fun a => by rw [if_neg (by omega)], by simp⟩
  | succ n ih =>
    obtain ⟨u, hu, hui, hus, huc⟩ :=
      setCursor_writeData_go s 0 k (List.replicate 128 pattern) (by omega) (by simp; omega)
    obtain ⟨t, ht, hti, hts, htc⟩ := ih (k + 1) (by omega) u
    refine ⟨t, ?_, ?_, ?_, ?_⟩
    · rw [List.range'_succ, fillPages]; simp only [displayWidth, hu, Flow.andThen_go, ht]
    · have := hui.trans hti
      rw [List.range'_succ, List.flatMap_cons]
      simp only [hui.positionEvents, hui.dataEvents] at this
      convert this using 1; omega
    · intro a
      rw [hts, hus, Memory.read_writeBytes]
      simp only [List.length_replicate]
      by_cases h1 : 128 * (k + 1) ≤ a ∧ a < 1024
      · rw [if_pos h1, if_pos (by omega)]
      · rw [if_neg h1]
        by_cases h2 : 128 * k ≤ a ∧ a < 1024
        · rw [if_pos h2, if_pos (by omega), List.getD_eq_getElem?_getD, List.getElem?_replicate, if_pos (by omega)]
          rfl
        · rw [if_neg h2, if_neg (by omega)]
    · intro _
      rcases Nat.eq_zero_or_pos n with h | h
      · subst h; simp [fillPages] at ht; subst ht; rw [huc]; simp; omega
      · exact htc h

/-! ## Pixels -/

theorem pixelMask_getLsbD (y : Int) {k : Nat} (hk : k < 8) : (pixelMask y).getLsbD k = decide (k = (y % 8).toNat) := by
  have : (y % 8).toNat < 8 := by omega
  unfold pixelMask mod8
  generalize (y % 8).toNat = m at this
  interval_cases m <;> interval_cases k <;> rfl

/-- An accepted pixel's index is an index of the shadow (R233, R234). -/
theorem pixOk_range {m : PixelBoundsMode} {x y : Int} (h : pixOk m x y = true) :
    0 ≤ y / 8 * 128 + x ∧ y / 8 * 128 + x ≤ 1023 := by
  cases m <;> simp only [pixOk, Bool.and_eq_true, decide_eq_true_eq] at h <;>
    (try simp only [pixelIndex, cursorOf, div8, displayWidth] at h) <;> omega

/-- SET_PIXEL on an accepted pixel reads the shadow byte and never faults in reading it (R236). -/
theorem State.drawPixel_eq (s : State) {x y : Int} (c : Byte) (h : 0 ≤ y / 8 * 128 + x ∧ y / 8 * 128 + x ≤ 1023) :
    s.drawPixel x y c =
      if pixelByte (s.shadow.read (y / 8 * 128 + x).toNat) y c = s.shadow.read (y / 8 * 128 + x).toNat then .go s
      else s.putPixel x y (pixelByte (s.shadow.read (y / 8 * 128 + x).toNat) y c) := by
  have hr : s.readShadow (pixelIndex x y) 1 = some [s.shadow.read (y / 8 * 128 + x).toNat] := by
    unfold State.readShadow
    rw [if_pos ((shadowInRange_iff _ _).mpr (by simp [pixelIndex, cursorOf, div8, displayWidth]; omega))]
    simp [Memory.readBytes, pixelIndex, cursorOf, div8, displayWidth, List.range_succ]
  unfold State.drawPixel
  rw [hr]; rfl

/-! ## Text -/

/-- The characters that fit, where there is a character and a column left (R240). -/
theorem fitLength_take {col : Int} {text : List Byte} (large : Bool) (h : col < cellsPerRow large) (hne : text ≠ []) :
    ¬ fitLength col text large ≤ 0 ∧
      text.take (fitLength col text large).toNat = text.take (cellsPerRow large - col).toNat := by
  have : 0 < text.length := List.length_pos_iff.mpr hne
  unfold fitLength
  refine ⟨by omega, ?_⟩
  rcases le_total (text.length : Int) (cellsPerRow large - col) with h | h
  · rw [min_eq_left h, List.take_of_length_le (by omega), List.take_of_length_le (by omega)]
  · rw [min_eq_right h]

@[simp] theorem State.length_glyph8 (s : State) (c : Byte) : (s.glyph8 c).length = 8 := by simp [State.glyph8]
@[simp] theorem State.length_strip16 (s : State) (c : Byte) (k : Nat) : (s.strip16 c k).length = 16 := by
  simp [State.strip16]

/-- Small characters in range: the 8 bytes of each glyph, contiguously from the cursor (R241). -/
theorem drawSmall_go (text : List Byte) (s : State) (h0 : 0 ≤ s.cursor) (h1 : s.cursor + 8 * text.length ≤ 1024) :
    ∃ t, drawSmall text s = .go t ∧ Inside s t (text.flatMap fun c => s.dataEvents (s.glyph8 c)) text.length ∧
      (∀ k < text.length, ∀ n < 8,
        t.shadow.read (s.cursor.toNat + 8 * k + n) = s.font8.read (8 * (text.getD k 0).toNat + n)) ∧
      SameOutside s.shadow t.shadow s.cursor.toNat (8 * text.length) ∧ t.cursor = s.cursor + 8 * text.length := by
  induction text generalizing s with
  | nil => exact ⟨s, rfl, Inside.refl s, by simp, fun a _ => rfl, by simp⟩
  | cons c cs ih =>
    simp only [List.length_cons] at h1
    obtain ⟨u, hu, hui, hus, huc⟩ :=
      writeData_go s (s.glyph8 c) ((shadowInRange_iff _ _).mpr ⟨h0, by rw [State.length_glyph8]; omega⟩)
    rw [State.length_glyph8] at huc
    have hcur : u.cursor.toNat = s.cursor.toNat + 8 := by omega
    obtain ⟨t, ht, hti, hts, hto, htc⟩ := ih u (by omega) (by omega)
    rw [hcur] at hts hto
    refine ⟨t, by rw [drawSmall, hu, Flow.andThen_go, ht], ?_, ?_, ?_, ?_⟩
    · have := hui.trans hti
      simp only [hui.glyph8, hui.dataEvents] at this
      rw [List.flatMap_cons, List.length_cons, Nat.add_comm]; exact this
    · intro k hk n hn
      rcases k with _ | k
      · rw [hto _ (by omega), hus, Memory.read_writeBytes, State.length_glyph8, if_pos (by omega), List.getD_cons_zero,
          State.glyph8, show s.cursor.toNat + 8 * 0 + n - s.cursor.toNat = n by omega, Memory.getD_readBytes _ _ _ _ hn]
      · have := hts k (by simpa using hk) n hn
        rw [List.getD_cons_succ, ← hui.tables.font8, ← this]
        congr 1; omega
    · intro a ha
      simp only [List.length_cons] at ha
      rw [hto a (by omega), hus, Memory.read_writeBytes, State.length_glyph8, if_neg (by omega)]
    · rw [htc, huc]; simp only [List.length_cons]; push_cast; omega

/-- One large character in range: strips 0, 1 and 2 at three pages (R242). -/
theorem drawLargeGlyph_go (c : Byte) (cell row : Int) (s : State) (hc : c.toNat < 128) (h0 : 0 ≤ cell) (h1 : cell < 8)
    (r0 : 0 ≤ row) (r1 : row ≤ 5) :
    ∃ t, drawLargeGlyph c cell row s = .go t ∧ Inside s t (s.largeEvents cell row c) 12 ∧
      (∀ a, t.shadow.read a =
        if (row * 128 + cell * 16).toNat ≤ a ∧ a < (row * 128 + cell * 16).toNat + 16 then
          s.font16.read (64 * c.toNat + (a - (row * 128 + cell * 16).toNat))
        else if ((row + 1) * 128 + cell * 16).toNat ≤ a ∧ a < ((row + 1) * 128 + cell * 16).toNat + 16 then
          s.font16.read (64 * c.toNat + 16 + (a - ((row + 1) * 128 + cell * 16).toNat))
        else if ((row + 2) * 128 + cell * 16).toNat ≤ a ∧ a < ((row + 2) * 128 + cell * 16).toNat + 16 then
          s.font16.read (64 * c.toNat + 32 + (a - ((row + 2) * 128 + cell * 16).toNat))
        else s.shadow.read a) ∧
      t.cursor = (row + 2) * 128 + 16 * (cell + 1) := by
  have e0 : row + (0 : Nat) = row := by simp
  have e1 : row + (1 : Nat) = row + 1 := by simp
  have e2 : row + (2 : Nat) = row + 2 := by simp
  obtain ⟨t0, ht0, hi0, hs0, -⟩ := setCursor_writeData_go s (cell * 16) (row + (0 : Nat)) (s.strip16 c 0) (by omega)
    (by rw [State.length_strip16]; omega)
  obtain ⟨t1, ht1, hi1, hs1, -⟩ := setCursor_writeData_go t0 (cell * 16) (row + (1 : Nat)) (t0.strip16 c 1) (by omega)
    (by rw [State.length_strip16]; omega)
  obtain ⟨t2, ht2, hi2, hs2, hc2⟩ := setCursor_writeData_go t1 (cell * 16) (row + (2 : Nat)) (t1.strip16 c 2) (by omega)
    (by rw [State.length_strip16]; omega)
  have h01 := hi0.trans hi1
  refine ⟨t2, ?_, ?_, ?_, ?_⟩
  · unfold drawLargeGlyph drawStrip
    rw [if_neg (by omega), ht0, Flow.andThen_go, ht1, Flow.andThen_go, ht2]
  · have := h01.trans hi2
    simp only [h01.positionEvents, h01.dataEvents, h01.strip16, hi0.positionEvents, hi0.dataEvents, hi0.strip16] at this
    have r3 : List.range 3 = [0, 1, 2] := rfl
    simpa [State.largeEvents, State.strip16Bytes_eq, r3] using this
  · intro a
    rw [hs2, Memory.read_writeBytes, hs1, Memory.read_writeBytes, hs0, Memory.read_writeBytes, State.length_strip16,
      State.length_strip16, State.length_strip16, h01.strip16, hi0.strip16, e0, e1, e2]
    unfold State.strip16
    split_ifs <;> first | omega | exact rfl | (rw [Memory.getD_readBytes _ _ _ _ (by omega)]; try rfl)
  · rw [hc2, State.length_strip16, e2]; push_cast; omega

/-- Inside a request the same characters make the same events. -/
theorem Inside.largeTextEvents {s t : State} {e : List Event} {n : Nat} (h : Inside s t e n) (row cell : Int)
    (text : List Byte) : t.largeTextEvents row text cell = s.largeTextEvents row text cell := by
  induction text generalizing cell with
  | nil => rfl
  | cons d ds ih =>
    simp only [State.largeTextEvents, State.largeEvents, State.strip16Bytes_eq, h.positionEvents, h.dataEvents, h.strip16, ih]

/-- Large characters in range, from a cell on (R242). -/
theorem drawLarge_go (row : Int) (r0 : 0 ≤ row) (r1 : row ≤ 5) (text : List Byte) (cell : Int) (s : State)
    (hc : ∀ c ∈ text, c.toNat < 128) (h0 : 0 ≤ cell) (h1 : cell + text.length ≤ 8) :
    ∃ t, drawLarge row text cell s = .go t ∧ Inside s t (s.largeTextEvents row text cell) (12 * text.length) ∧
      (∀ k < text.length, ∀ j < 3, ∀ n < 16,
        t.shadow.read (((row + (j : Nat)) * 128 + (cell + (k : Nat)) * 16).toNat + n) =
          s.font16.read (64 * (text.getD k 0).toNat + 16 * j + n)) ∧
      (∀ a, (∀ j < 3, a < ((row + (j : Nat)) * 128 + cell * 16).toNat ∨
        ((row + (j : Nat)) * 128 + cell * 16).toNat + 16 * text.length ≤ a) → t.shadow.read a = s.shadow.read a) ∧
      (0 < text.length → t.cursor = (row + 2) * 128 + 16 * (cell + text.length)) := by
  induction text generalizing s cell with
  | nil => exact ⟨s, rfl, Inside.refl s, by simp, by simp, by simp⟩
  | cons c cs ih =>
    simp only [List.length_cons] at h1
    obtain ⟨u, hu, hui, hus, huc⟩ := drawLargeGlyph_go c cell row s (hc c (by simp)) h0 (by omega) r0 r1
    obtain ⟨t, ht, hti, hts, hto, htc⟩ := ih (cell + 1) u (fun d hd => hc d (by simp [hd])) (by omega) (by omega)
    refine ⟨t, by rw [drawLarge, hu, Flow.andThen_go, ht], ?_, ?_, ?_, ?_⟩
    · have := hui.trans hti
      rw [hui.largeTextEvents] at this
      rw [List.length_cons, Nat.mul_add, Nat.add_comm]; exact this
    · intro k hk j hj n hn
      have hj3 : j = 0 ∨ j = 1 ∨ j = 2 := by omega
      rcases k with _ | k
      · rw [hto]
        · rw [hus]
          rcases hj3 with rfl | rfl | rfl
          · rw [if_pos (by constructor <;> push_cast <;> omega)]; congr 1; simp
          · rw [if_neg (by push_cast; omega), if_pos (by constructor <;> push_cast <;> omega)]; congr 1; simp
          · rw [if_neg (by push_cast; omega), if_neg (by push_cast; omega),
              if_pos (by constructor <;> push_cast <;> omega)]
            congr 1; simp
        · intro j' hj'
          have hj4 : j' = 0 ∨ j' = 1 ∨ j' = 2 := by omega
          rcases hj3 with rfl | rfl | rfl <;> rcases hj4 with rfl | rfl | rfl <;> push_cast <;> omega
      · have := hts k (by simpa using hk) j hj n hn
        rw [List.getD_cons_succ, ← hui.tables.font16, ← this]
        congr 2; push_cast; omega
    · intro a ha
      simp only [List.length_cons] at ha
      have ha0 := ha 0 (by omega)
      have ha1 := ha 1 (by omega)
      have ha2 := ha 2 (by omega)
      push_cast at ha0 ha1 ha2
      rw [hto, hus, if_neg (by omega), if_neg (by omega), if_neg (by omega)]
      intro j hj
      have := ha j hj
      omega
    · intro _
      rcases cs with _ | ⟨d, ds⟩
      · simp [drawLarge] at ht; subst ht; rw [huc]; simp
      · rw [htc (by simp)]; simp only [List.length_cons]; push_cast; omega

/-- Large text up to a character it reaches (R243). -/
theorem drawLarge_append (row : Int) (a b : List Byte) (cell : Int) (s t : State) (h : drawLarge row a cell s = .go t) :
    drawLarge row (a ++ b) cell s = drawLarge row b (cell + a.length) t := by
  induction a generalizing cell s with
  | nil => simp [drawLarge] at h; subst h; simp
  | cons c cs ih =>
    rw [drawLarge] at h
    rw [List.cons_append, drawLarge]
    cases hx : drawLargeGlyph c cell row s with
    | go u =>
      rw [hx, Flow.andThen_go] at h
      rw [Flow.andThen_go, ih _ _ h]
      congr 1; simp; omega
    | raised _ _ => rw [hx] at h; simp at h

end Sys2Proof.Machine
end

