-- ==== Sys2Proof/Laws/PerInstr.lean ====
section
/-! SUPPORT. Statements made instruction by instruction. OpcodeByte: the first byte of every encoded instruction is one of
its row of spec/opcode_table.json (match and mask). -/
namespace Sys2Proof.Laws.OpcodeByte

/-- The first byte of a well-formed instruction's encoding matches its row of the opcode table, on the row's port. -/
def Statement (i : Instr) : Prop :=
  i.wellFormed = true → i.row.port = i.port ∧ ∃ b t, encode i = b :: t ∧ b &&& i.row.mask = i.row.value

theorem init (c a : Nat) (f v t : Bool) (d r : Nat) : Statement (.init c a f v t d r) := fun _ => ⟨rfl, _, _, rfl, by simp only [Instr.row]; decide⟩
theorem shutdown : Statement .shutdown := fun _ => ⟨rfl, _, _, rfl, by decide⟩
theorem fill (p : Byte) : Statement (.fill p) := fun _ => ⟨rfl, _, _, rfl, by simp only [Instr.row]; decide⟩
theorem setPixel (x y : Int) (c : Byte) : Statement (.setPixel x y c) := fun _ => ⟨rfl, _, _, rfl, by simp only [Instr.row]; decide⟩
theorem writeString (c r : Int) (t : List Byte) (l : Bool) : Statement (.writeString c r t l) := fun _ => ⟨rfl, _, _, rfl, by simp only [Instr.row]; decide⟩
theorem setContrast (v : Byte) : Statement (.setContrast v) := fun _ => ⟨rfl, _, _, rfl, by simp only [Instr.row]; decide⟩
theorem setCursor (c p : Int) : Statement (.setCursor c p) := fun _ => ⟨rfl, _, _, rfl, by simp only [Instr.row]; decide⟩
theorem writeCommand (b : List Byte) : Statement (.writeCommand b) := fun _ => ⟨rfl, _, _, rfl, by simp only [Instr.row]; decide⟩
theorem writeData (b : List Byte) : Statement (.writeData b) := fun _ => ⟨rfl, _, _, rfl, by simp only [Instr.row]; decide⟩
theorem xform8 : Statement .xform8 := fun _ => ⟨rfl, _, _, rfl, by decide⟩
theorem xform16 : Statement .xform16 := fun _ => ⟨rfl, _, _, rfl, by decide⟩
theorem displayOff : Statement .displayOff := fun _ => ⟨rfl, _, _, rfl, by decide⟩
theorem setContrastCmd (v : Byte) : Statement (.setContrastCmd v) := fun _ => ⟨rfl, _, _, rfl, by simp only [Instr.row]; decide⟩
theorem pageSelect (p : Int) : Statement (.pageSelect p) := by
  intro h
  simp only [Instr.wellFormed, Bool.and_eq_true, decide_eq_true_eq] at h
  obtain ⟨n, rfl⟩ := Int.eq_ofNat_of_zero_le h.1
  have hn : n < 8 := by omega
  refine ⟨rfl, _, _, rfl, ?_⟩
  interval_cases n <;> decide
theorem columnLow (n : BitVec 4) : Statement (.columnLow n) := fun _ => ⟨rfl, _, _, rfl, by revert n; decide⟩
theorem columnHigh (n : BitVec 4) : Statement (.columnHigh n) := fun _ => ⟨rfl, _, _, rfl, by revert n; decide⟩
theorem invertDisplay : Statement .invertDisplay := fun _ => ⟨rfl, _, _, rfl, by decide⟩
theorem remapA0 : Statement .remapA0 := fun _ => ⟨rfl, _, _, rfl, by decide⟩
theorem remapC0 : Statement .remapC0 := fun _ => ⟨rfl, _, _, rfl, by decide⟩
theorem setMultiplex (v : Byte) : Statement (.setMultiplex v) := fun _ => ⟨rfl, _, _, rfl, by simp only [Instr.row]; decide⟩
theorem setDisplayOffset (v : Byte) : Statement (.setDisplayOffset v) := fun _ => ⟨rfl, _, _, rfl, by simp only [Instr.row]; decide⟩
theorem setStartLine (n : BitVec 6) : Statement (.setStartLine n) := fun _ => ⟨rfl, _, _, rfl, by revert n; decide⟩
theorem segmentRemapA1 : Statement .segmentRemapA1 := fun _ => ⟨rfl, _, _, rfl, by decide⟩
theorem comScanRemapped : Statement .comScanRemapped := fun _ => ⟨rfl, _, _, rfl, by decide⟩
theorem setComPins (v : Byte) : Statement (.setComPins v) := fun _ => ⟨rfl, _, _, rfl, by simp only [Instr.row]; decide⟩
theorem displayFollowRam : Statement .displayFollowRam := fun _ => ⟨rfl, _, _, rfl, by decide⟩
theorem normalDisplay : Statement .normalDisplay := fun _ => ⟨rfl, _, _, rfl, by decide⟩
theorem setClockDiv (v : Byte) : Statement (.setClockDiv v) := fun _ => ⟨rfl, _, _, rfl, by simp only [Instr.row]; decide⟩
theorem chargePump (v : Byte) : Statement (.chargePump v) := fun _ => ⟨rfl, _, _, rfl, by simp only [Instr.row]; decide⟩
theorem displayOn : Statement .displayOn := fun _ => ⟨rfl, _, _, rfl, by decide⟩
theorem setAddressingMode (v : Byte) : Statement (.setAddressingMode v) := fun _ => ⟨rfl, _, _, rfl, by simp only [Instr.row]; decide⟩

end Sys2Proof.Laws.OpcodeByte
end

