-- ==== Sys2Proof/Laws/Session.lean ====
section
/-! SUPPORT. What the operations of INIT can do (spec 40_session R150 to R155), and the answers they see. -/
namespace Sys2Proof.Machine

/-! ## Answers -/

theorem State.answer_eq (s : State) : s.answer = s.answerAt 0 := by
  unfold State.answer State.answerAt
  cases s.answers <;> simp

/-- A call uses up one answer. -/
theorem State.called_answerAt (s : State) (e : Event) (k : Nat) : (s.called e).answerAt k = s.answerAt (k + 1) := by
  unfold State.answerAt
  simp [Nat.add_assoc, Nat.add_comm 1 k]

/-- A call answered Ok goes on with its value. -/
theorem State.callOrFail_ok (s : State) (e : Event) (k : Nat → State → State) {v : Nat} (h : s.answerAt 0 = .ok v) :
    s.callOrFail e k = k v (s.called e) := by
  unfold State.callOrFail
  rw [State.answer_eq, h]

/-- A call answered with an error ends INIT with the code 1 (R151). -/
theorem State.callOrFail_error (s : State) (e : Event) (k : Nat → State → State) (h : s.answerAt 0 = .error) :
    s.callOrFail e k = (s.called e).ret (some .one) := by
  unfold State.callOrFail
  rw [State.answer_eq, h]

/-! ## Ending a request -/

/-- A return after operations inside a request: what they emitted, and everything but shadow and cursor unchanged. -/
theorem Inside.ret {s t : State} {e : List Event} {n : Nat} (h : Inside s t e n) (c : Option Code) :
    Emitted s (t.ret c) e n ∧ SameSession s (t.ret c) ∧ SameTables s (t.ret c) ∧ SameInputs s (t.ret c) ∧
      Returned s (t.ret c) c := by
  obtain ⟨⟨a1, a2, a3, a4, a5⟩, ⟨b1, b2, b3⟩, ⟨c1, c2⟩, ⟨d1, d2, d3⟩, e1, e2, e3⟩ := h
  refine ⟨⟨?_, ?_, ?_⟩, ⟨?_, ?_, ?_, ?_, ?_⟩, ⟨?_, ?_, ?_⟩, ⟨?_, ?_⟩, ⟨?_, ?_, ?_⟩⟩ <;> simp [*]

/-- A fault raised after operations inside a request: everything done so far stands (R276). -/
theorem Inside.raise {s t : State} {e : List Event} {n : Nat} (h : Inside s t e n) (c : FaultCause) (i : Instr) :
    Raised s (t.raise c (.record i)) c i ∧ Emitted s (t.raise c (.record i)) e n ∧
      SameSession s (t.raise c (.record i)) ∧ SameTables s (t.raise c (.record i)) ∧
      SameInputs s (t.raise c (.record i)) := by
  obtain ⟨⟨a1, a2, a3, a4, a5⟩, ⟨b1, b2, b3⟩, ⟨c1, c2⟩, ⟨d1, d2, d3⟩, e1, e2, e3⟩ := h
  refine ⟨⟨?_, ?_, ?_⟩, ⟨?_, ?_, ?_⟩, ⟨?_, ?_, ?_, ?_, ?_⟩, ⟨?_, ?_, ?_⟩, ⟨?_, ?_⟩⟩ <;> simp [*]

/-! ## INIT -/

/-- The optional commands of INIT as one record (R154). -/
theorem State.optionalCommands_eq (s : State) (flip invert : Bool) :
    s.optionalCommands flip invert =
      { s with
        trace := s.trace ++ (if invert then s.commandEvents [0xA7] else [])
          ++ (if flip then s.commandEvents [0xA0] ++ s.commandEvents [0xC0] else []),
        answers := s.answers.drop ((if invert then 1 else 0) + (if flip then 2 else 0)),
        drawCount := s.drawCount + ((if invert then 1 else 0) + (if flip then 2 else 0)) } := by
  cases flip <;> cases invert <;>
    simp [State.optionalCommands, State.writeCommand_eq, State.commandEvents, State.transferEvents, ← List.drop_one]

/-- INIT once nothing can fail any more ends Active and returns 0 (R150). -/
theorem State.startSession_spec (s : State) (handle : Nat) (flip invert strobed : Bool) (dcLine resetLine : Nat) :
    (s.startSession handle flip invert strobed dcLine resetLine).session = .active ∧
    (s.startSession handle flip invert strobed dcLine resetLine).handle = some handle ∧
    TablesAfterInit s (s.startSession handle flip invert strobed dcLine resetLine) ∧
    SameShadow s (s.startSession handle flip invert strobed dcLine resetLine) ∧
    SameInputs s (s.startSession handle flip invert strobed dcLine resetLine) ∧
    Returned s (s.startSession handle flip invert strobed dcLine resetLine) (some .zero) ∧
    ∃ e, (s.startSession handle flip invert strobed dcLine resetLine).trace = s.trace ++ e := by
  simp only [State.startSession, State.optionalCommands_eq]
  refine ⟨?_, ?_, ?_, ⟨?_, ?_⟩, ⟨?_, ?_⟩, ⟨?_, ?_, ?_⟩, ?_⟩
  case refine_3 =>
    unfold TablesAfterInit
    simp only [State.ret_font8, State.ret_font16, State.ret_xformCount]
    rw [State.xform_eq]
    split_ifs <;> simp_all
    all_goals (constructor <;> simp)
  case refine_11 =>
    simp only [State.ret_trace, State.xform_trace, State.writeCommand_trace, State.commitSession_trace,
      List.append_assoc]
    exact ⟨_, rfl⟩
  all_goals simp

/-- INIT from a session that is not Active either fails at one of its answers, or gets past them with nothing changed but
the trace and the answers drawn (R150, R151). -/
theorem State.initialize_cases (s : State) (channel address : Nat) (flip invert strobed : Bool) (dcLine resetLine : Nat) :
    (∃ events calls, s.initialize channel address flip invert strobed dcLine resetLine = s.failedInit events calls) ∨
    ∃ u handle, (∃ e n, Inside s u e n) ∧ SameShadow s u ∧
      s.initialize channel address flip invert strobed dcLine resetLine =
        u.startSession handle flip invert strobed dcLine resetLine := by
  unfold State.initialize State.callOrFail
  cases s.answer with
  | error => exact .inl ⟨[.hwInit], 1, by simp [State.failedInit, State.ret, State.called, State.emit, State.drawn]⟩
  | ok v0 =>
    simp only
    generalize (s.called .hwInit).openEvent channel address strobed = ev
    cases (s.called .hwInit).answer with
    | error =>
      exact .inl ⟨[.hwInit, ev], 2,
        by simp [State.failedInit, State.ret, State.called, State.emit, State.drawn, ← List.drop_one]⟩
    | ok handle =>
      simp only
      cases strobed with
      | false =>
        refine .inr ⟨_, handle, ⟨[.hwInit, ev], 2, ?_⟩, ⟨?_, ?_⟩, rfl⟩
        · refine ⟨⟨?_, ?_, ?_, ?_, ?_⟩, ⟨?_, ?_, ?_⟩, ⟨?_, ?_⟩, ⟨?_, ?_, ?_⟩, ?_, ?_, ?_⟩ <;> simp [← List.drop_one]
        · simp
        · simp
      | true =>
        simp only [if_true]
        cases ((s.called .hwInit).called ev).answer with
        | error =>
          exact .inl ⟨[.hwInit, ev, .gpioRegister dcLine], 3,
            by simp [State.failedInit, State.ret, State.called, State.emit, State.drawn, ← List.drop_one]⟩
        | ok v2 =>
          simp only
          cases (((s.called .hwInit).called ev).called (.gpioRegister dcLine)).answer with
          | error =>
            exact .inl ⟨[.hwInit, ev, .gpioRegister dcLine, .gpioRegister resetLine], 4,
              by simp [State.failedInit, State.ret, State.called, State.emit, State.drawn, ← List.drop_one]⟩
          | ok v3 =>
            refine .inr ⟨_, handle, ⟨[.hwInit, ev, .gpioRegister dcLine, .gpioRegister resetLine,
              .gpioWrite resetLine false, .delay s.params.resetHoldMs, .gpioWrite resetLine true], 4, ?_⟩, ⟨?_, ?_⟩, rfl⟩
            · refine ⟨⟨?_, ?_, ?_, ?_, ?_⟩, ⟨?_, ?_, ?_⟩, ⟨?_, ?_⟩, ⟨?_, ?_, ?_⟩, ?_, ?_, ?_⟩ <;>
                simp [← List.drop_one, State.resetPulse]
            · simp [State.resetPulse]
            · simp [State.resetPulse]

end Sys2Proof.Machine
end

