-- ==== Sys2Proof/Laws/Step.lean ====
section
/-! SUPPORT. Everything a step can do, said once: which requests change what. -/
namespace Sys2Proof.Machine

/-- A step with a next state waits, raises `IllegalRequest`, or runs an instruction. -/
theorem step_cases {s t : State} (h : step s = .next t) :
    t = s ∨ (∃ c p, t = s.raise c p) ∨ ∃ i, exec i s = .next t := by
  unfold step at h
  split at h
  · cases h
  · split at h
    · cases h; exact .inl rfl
    · cases h
    · cases h; exact .inr (.inl ⟨_, _, rfl⟩)
    · cases h
    · exact .inr (.inr ⟨_, h⟩)

/-- Operations inside a request, then its end: only shadow, cursor, trace and answers may differ, and what the end writes. -/
def Draws (s : State) (i : Instr) (t : State) : Prop :=
  ∃ u e n, Inside s u e n ∧ ((∃ c, t = u.ret c) ∨ ∃ c, t = u.raise c (.record i))

theorem draws_finish {s : State} {x : Flow} (h : ∃ e n, Inside s x.state e n) (i : Instr) (c : Option Code) :
    Draws s i (x.finish i c) := by
  obtain ⟨e, n, h⟩ := h
  refine ⟨x.state, e, n, h, ?_⟩
  rcases Flow.finish_cases x i c with h | h
  · exact .inl ⟨_, h⟩
  · exact .inr h

theorem draws_ret (s : State) (i : Instr) (c : Option Code) : Draws s i (s.ret c) :=
  ⟨s, [], 0, Inside.refl s, .inl ⟨_, rfl⟩⟩

theorem draws_raise (s : State) (i : Instr) (c : FaultCause) : Draws s i (s.raise c (.record i)) :=
  ⟨s, [], 0, Inside.refl s, .inr ⟨_, rfl⟩⟩

/-- What an instruction can do: draw or send; INIT, failed or begun; close the session; transform a table. -/
theorem exec_cases {i : Instr} {s t : State} (h : exec i s = .next t) :
    Draws s i t ∨
    (i.isInit = true ∧ s.session ≠ .active ∧
      ((∃ ev n, t = s.failedInit ev n) ∨
        ∃ u handle flip invert strobed dcLine resetLine, (∃ e n, Inside s u e n) ∧ SameShadow s u ∧
          t = u.startSession handle flip invert strobed dcLine resetLine)) ∨
    (i = .shutdown ∧ s.session = .active ∧ t = s.closeSession.ret none) ∨
    (i = .xform8 ∧ t = s.xform8.ret none) ∨ (i = .xform16 ∧ t = s.xform16.ret none) := by
  have K := keptBySequencer_inside s
  have R : ∃ e n, Inside s s e n := ⟨_, _, Inside.refl s⟩
  cases i with
  | init c a f v st d r =>
    cases h
    by_cases hs : s.session = .active
    · rw [if_pos hs]; exact .inl (draws_raise s _ _)
    · rw [if_neg hs]
      refine .inr (.inl ⟨rfl, hs, ?_⟩)
      rcases s.initialize_cases c a f v st d r with ⟨ev, n, h⟩ | ⟨u, hd, h1, h2, h3⟩
      · exact .inl ⟨ev, n, h⟩
      · exact .inr ⟨u, hd, f, v, st, d, r, h1, h2, h3⟩
  | shutdown =>
    cases h
    by_cases hs : s.session = .active
    · rw [if_pos hs]; exact .inr (.inr (.inl ⟨rfl, hs, rfl⟩))
    · rw [if_neg hs]; exact .inl (draws_ret s _ _)
  | fill p =>
    cases h
    by_cases hs : s.session = .active
    · rw [if_pos hs]; exact .inl (draws_finish (K.fillPages p _ s R) _ _)
    · rw [if_neg hs]; exact .inl (draws_ret s _ _)
  | setPixel x y c =>
    cases h
    by_cases hs : s.session = .active
    · rw [if_pos hs]; split
      · exact .inl (draws_finish (K.drawPixel x y c s R) _ _)
      · exact .inl (draws_ret s _ _)
    · rw [if_neg hs]; exact .inl (draws_ret s _ _)
  | writeString col row text large =>
    cases h
    by_cases hs : s.session = .active
    · rw [if_pos hs]; split
      · exact .inl (draws_raise s _ _)
      · split
        · exact .inl (draws_ret s _ _)
        · exact .inl (draws_finish (K.drawText col row _ large s R) _ _)
    · rw [if_neg hs]; exact .inl (draws_ret s _ _)
  | setContrast l =>
    cases h
    by_cases hs : s.session = .active
    · rw [if_pos hs]; exact .inl ⟨_, _, _, inside_writeCommand s _, .inl ⟨_, rfl⟩⟩
    · rw [if_neg hs]; exact .inl (draws_ret s _ _)
  | setCursor c p => cases h; exact .inl ⟨_, _, _, inside_setCursor s _ _, .inl ⟨_, rfl⟩⟩
  | writeData b => cases h; exact .inl (draws_finish (K.writeData s b R) _ _)
  | xform8 => cases h; exact .inr (.inr (.inr (.inl ⟨rfl, rfl⟩)))
  | xform16 => cases h; exact .inr (.inr (.inr (.inr ⟨rfl, rfl⟩)))
  | _ => cases h; exact .inl ⟨_, _, _, inside_writeCommand s _, .inl ⟨_, rfl⟩⟩

end Sys2Proof.Machine
end

