-- ==== Sys2Proof/Tests/Slice0.lean ====
section
/-! SUPPORT. Tests: expected values are the spec's own vectors (95_test_vectors) or worked out by hand from its rules; and a
concrete state and operands for the hypotheses of each statement (witness_...). -/
namespace Sys2Proof.Tests
open Sys2Proof.Machine

/-! ## Small states -/

/-- The default parameters with a clock rate, which the spec leaves open, given a value. -/
def inputs : Params := { Config.defaultParams with strobedClockHz := 400000 }

/-- Reset with empty memories, and answers Ok: the open answers handle 7. -/
def idle : State :=
  { State.reset with
    shadow := ⟨[], []⟩, font8 := ⟨[], []⟩, font16 := ⟨[], []⟩, params := inputs
    answers := [.ok 0, .ok 7, .ok 0, .ok 0] }

/-- Active(A) of 95_test_vectors. -/
def activeA : State := { idle with session := .active, handle := some 7, xformCount := 1 }

/-- Active(S) of 95_test_vectors. -/
def activeS : State := { activeA with kind := .strobed, dcLine := 24, rstLine := 25 }

/-- The glyph of 'I' after one transform (95_test_vectors, section 0). -/
def glyphI : List Byte := [0x00, 0x00, 0x00, 0x41, 0x7F, 0x41, 0x00, 0x00]

/-- A strip of the large 'A' after one transform (95_test_vectors, section 0). -/
def stripA : List Byte := [0, 0, 0, 0, 0, 0, 0, 0xFF, 0xFF, 0, 0, 0, 0, 0, 0, 0]

/-- Bytes as cells from an index on. -/
def cellsFrom (a : Nat) (l : List Byte) : List Host.Cell := l.mapIdx fun k b => (a + k, b)

/-- Active(A) with the transformed 'I', and the three strips of the large 'A' that are drawn. -/
def fonts : State :=
  { activeA with
    font8 := ⟨cellsFrom (8 * 0x49) glyphI, []⟩
    font16 := ⟨cellsFrom (64 * 0x41) (stripA ++ stripA ++ stripA), []⟩ }

/-- A state whose next request is the entry. -/
def given (s : State) (p : Payload) (overlapping : Bool) : State := { s with program := [⟨p, overlapping⟩] }

/-- The next state of an instruction, the state itself where there is none. -/
def after (i : Instr) (s : State) : State :=
  match exec i s with
  | .next t => t
  | .fault _ => s
  | .refused _ => s

/-- A command transfer on the addressed wire. -/
def c (bytes : List Byte) : Event := .writeAddressed (some 7) 0x00 bytes
/-- A data transfer on the addressed wire. -/
def d (bytes : List Byte) : Event := .writeAddressed (some 7) 0x40 bytes

/-! ## WellFormed: a term for each check, which the check refuses -/

theorem test_ill_init_channel : Instr.wellFormed (.init 256 0 false false false 0 0) = false := by decide
theorem test_ill_init_address : Instr.wellFormed (.init 0 256 false false false 0 0) = false := by decide
theorem test_ill_init_dc : Instr.wellFormed (.init 0 0 false false true 65536 0) = false := by decide
theorem test_ill_init_reset : Instr.wellFormed (.init 0 0 false false true 0 65536) = false := by decide
theorem test_ill_pixel_x : Instr.wellFormed (.setPixel 32768 0 1) = false := by decide
theorem test_ill_pixel_x_low : Instr.wellFormed (.setPixel (-32769) 0 1) = false := by decide
theorem test_ill_pixel_y : Instr.wellFormed (.setPixel 0 (-32769) 1) = false := by decide
theorem test_ill_pixel_y_high : Instr.wellFormed (.setPixel 0 32768 1) = false := by decide
theorem test_ill_string_col : Instr.wellFormed (.writeString 128 0 [] false) = false := by decide
theorem test_ill_string_row : Instr.wellFormed (.writeString 0 (-129) [] false) = false := by decide
theorem test_ill_string_length : Instr.wellFormed (.writeString 0 0 (List.replicate 256 0x41) false) = false := by decide +kernel
theorem test_ill_cursor_column : Instr.wellFormed (.setCursor 32768 0) = false := by decide
theorem test_ill_cursor_page : Instr.wellFormed (.setCursor 0 (-32769)) = false := by decide
theorem test_ill_command_length : Instr.wellFormed (.writeCommand [1, 2, 3]) = false := by decide
theorem test_ill_command_empty : Instr.wellFormed (.writeCommand []) = false := by decide
theorem test_ill_data_empty : Instr.wellFormed (.writeData []) = false := by decide
theorem test_ill_data_length : Instr.wellFormed (.writeData (List.replicate 257 0)) = false := by decide +kernel
theorem test_ill_page_high : Instr.wellFormed (.pageSelect 8) = false := by decide
theorem test_ill_page_low : Instr.wellFormed (.pageSelect (-1)) = false := by decide

/-- The bounds themselves are well formed. -/
theorem test_well_formed_bounds :
    Instr.wellFormed (.init 255 255 true true true 65535 65535) = true ∧ Instr.wellFormed (.setPixel (-32768) 32767 0) = true ∧
    Instr.wellFormed (.writeString (-128) 127 [] true) = true ∧ Instr.wellFormed (.setCursor 32767 (-32768)) = true ∧
    Instr.wellFormed (.writeCommand [0xAF]) = true ∧ Instr.wellFormed (.writeData [0]) = true ∧
    Instr.wellFormed (.pageSelect 7) = true := by decide

/-! ## Decoding: each constructor's word, from the spec's encoding of it (30_encoding R112 to R124, R128; V-E1) -/

theorem test_decode_init : decode .host [0x01, 0x03, 0x01, 0x3D, 0x00, 0x00, 0x00, 0x00] = .instr (.init 1 61 true true false 0 0) [] := by decide
theorem test_decode_init_strobed : decode .host [0x01, 0x06, 0x00, 0x00, 0x18, 0x01, 0x19, 0x00] = .instr (.init 0 0 false true true 280 25) [] := by decide
theorem test_decode_shutdown : decode .host [0x02] = .instr (.shutdown) [] := by decide
theorem test_decode_fill : decode .host [0x03, 0xAA] = .instr (.fill 0xAA) [] := by decide
theorem test_decode_set_pixel : decode .host [0x04, 0xFF, 0xFF, 0x40, 0x00, 0x01] = .instr (.setPixel (-1) 64 0x01) [] := by decide
theorem test_decode_write_string : decode .host [0x05, 0x00, 0xFF, 0x00, 0x01, 0x41, 0x02] = .instr (.writeString (-1) 0 [0x41] false) [0x02] := by decide
theorem test_decode_write_string_large : decode .host [0x05, 0x01, 0x07, 0x06, 0x01, 0x41] = .instr (.writeString 7 6 [0x41] true) [] := by decide
theorem test_decode_set_contrast : decode .host [0x06, 0x7F] = .instr (.setContrast 0x7F) [] := by decide
theorem test_decode_set_cursor : decode .sequencer [0x80, 0x75, 0x00, 0xFF, 0xFF] = .instr (.setCursor 117 (-1)) [] := by decide
theorem test_decode_write_command : decode .sequencer [0x81, 0x01, 0x81, 0x7F] = .instr (.writeCommand [0x81, 0x7F]) [] := by decide
theorem test_decode_write_data : decode .sequencer [0x82, 0x00, 0x5A, 0x83] = .instr (.writeData [0x5A]) [0x83] := by decide
theorem test_decode_xform8 : decode .sequencer [0x83] = .instr (.xform8) [] := by decide
theorem test_decode_xform16 : decode .sequencer [0x84] = .instr (.xform16) [] := by decide
theorem test_decode_display_off : decode .controller [0xAE] = .instr (.displayOff) [] := by decide
theorem test_decode_set_contrast_cmd : decode .controller [0x81, 0x7F] = .instr (.setContrastCmd 0x7F) [] := by decide
theorem test_decode_page_select : decode .controller [0xB3] = .instr (.pageSelect 3) [] := by decide
theorem test_decode_column_low : decode .controller [0x05] = .instr (.columnLow 5) [] := by decide
theorem test_decode_column_high : decode .controller [0x17] = .instr (.columnHigh 7) [] := by decide
theorem test_decode_invert_display : decode .controller [0xA7] = .instr (.invertDisplay) [] := by decide
theorem test_decode_remap_a0 : decode .controller [0xA0] = .instr (.remapA0) [] := by decide
theorem test_decode_remap_c0 : decode .controller [0xC0] = .instr (.remapC0) [] := by decide
theorem test_decode_set_multiplex : decode .controller [0xA8, 0x3F] = .instr (.setMultiplex 0x3F) [] := by decide
theorem test_decode_set_display_offset : decode .controller [0xD3, 0x00] = .instr (.setDisplayOffset 0x00) [] := by decide
theorem test_decode_set_start_line : decode .controller [0x40] = .instr (.setStartLine 0) [] := by decide
theorem test_decode_segment_remap_a1 : decode .controller [0xA1] = .instr (.segmentRemapA1) [] := by decide
theorem test_decode_com_scan_remapped : decode .controller [0xC8] = .instr (.comScanRemapped) [] := by decide
theorem test_decode_set_com_pins : decode .controller [0xDA, 0x12] = .instr (.setComPins 0x12) [] := by decide
theorem test_decode_display_follow_ram : decode .controller [0xA4] = .instr (.displayFollowRam) [] := by decide
theorem test_decode_normal_display : decode .controller [0xA6] = .instr (.normalDisplay) [] := by decide
theorem test_decode_set_clock_div : decode .controller [0xD5, 0x80] = .instr (.setClockDiv 0x80) [] := by decide
theorem test_decode_charge_pump : decode .controller [0x8D, 0x14] = .instr (.chargePump 0x14) [] := by decide
theorem test_decode_display_on : decode .controller [0xAF] = .instr (.displayOn) [] := by decide
theorem test_decode_set_addressing_mode : decode .controller [0x20, 0x02] = .instr (.setAddressingMode 0x02) [] := by decide

/-- V-E2: bytes that are no host request, with the opcode byte of the fault's info. -/
theorem test_decode_illegal :
    decode .host [0x00] = .reject (.unassigned 0x00) ∧ decode .host [0x07] = .reject (.unassigned 0x07) ∧
    decode .host [0x80, 0x00, 0x00, 0x00] = .reject (.unassigned 0x80) ∧ decode .host [0xFF] = .reject (.unassigned 0xFF) ∧
    decode .host [0x01, 0x08, 0x01, 0x3C, 0, 0, 0, 0] = .reject (.reservedBit 0x01) ∧
    decode .host [0x05, 0x02, 0x00, 0x00, 0x01, 0x41] = .reject (.reservedBit 0x05) ∧
    decode .host [0x04, 0x05, 0x00, 0x0D] = .reject (.short 0x04) ∧
    decode .host [0x05, 0x00, 0x00, 0x00, 0x03, 0x48, 0x49] = .reject (.short 0x05) := by decide

/-- R134, of WRITE_STRING: a byte that is not printable is written as an escape. -/
theorem test_asm_write_string :
    asmOf (.writeString 0 (-1) [0x48, 0x80] true) = some "WRSTR 0, -1, \"H\\x80\", large" := by decide

/-- A word of the opcode table (V-E1 `03 AA`), and one that only the controller has. -/
theorem test_table_word : decodeTableWord 16 0xAA03 = some (.fill 0xAA) ∧ decodeTableWord 8 0xAE = some .displayOff := by
  decide

/-! ## The font transform (V-X1, V-XS, V-XH, V-X9, V-X15) -/

theorem test_rot8_single_bit : rot8 [1, 0, 0, 0, 0, 0, 0, 0] = [0, 0, 0, 0, 0, 0, 0, 1] := by decide
theorem test_rot8_asymmetric : rot8 [0x0F, 1, 0, 0, 0, 0, 0, 0] = [0, 0, 0, 0, 1, 1, 1, 3] := by decide
theorem test_rot8_h :
    rot8 [0x42, 0x42, 0x42, 0x7E, 0x42, 0x42, 0x42, 0] = [0, 0x7F, 8, 8, 8, 8, 0x7F, 0] := by decide
theorem test_rot8_loop_asymmetric : rot8Loop [0x0F, 1, 0, 0, 0, 0, 0, 0] = [0, 0, 0, 0, 1, 1, 1, 3] := by decide
theorem test_rot16_right_half :
    rot16 [0, 1, 0, 0, 0, 0, 0, 0, 0, 0, 0, 0, 0, 0, 0, 0] = [0, 0, 0, 0, 0, 0, 0, 0, 0, 0, 0, 0, 0, 0, 0, 1] := by decide
theorem test_rot16_both_halves :
    rot16 [0x0F, 1, 0, 0, 0, 0, 0, 0, 0, 0, 0, 0, 0, 0, 0, 0] =
      [0, 0, 0, 0, 1, 1, 1, 1, 0, 0, 0, 0, 0, 0, 0, 1] := by decide

/-! ## One step of each instruction -/

/-- V-S1. -/
theorem test_init_addressed :
    (after (.init 1 0x3C false false false 0 0) idle).trace = [.hwInit, .openAddressed 1 0x3C, c Config.defaultInitSeq] ∧
    (after (.init 1 0x3C false false false 0 0) idle).session = .active ∧
    (after (.init 1 0x3C false false false 0 0) idle).handle = some 7 ∧
    (after (.init 1 0x3C false false false 0 0) idle).xformCount = 1 := by decide

/-- V-S2, with invert and flip as in V-S3. -/
theorem test_init_strobed :
    (after (.init 0 0 true true true 24 25) idle).trace =
      [.hwInit, .openStrobed 0 400000, .gpioRegister 24, .gpioRegister 25, .gpioWrite 25 false, .delay 10, .gpioWrite 25 true,
        .gpioWrite 24 false, .writeStrobed (some 7) Config.defaultInitSeq, .gpioWrite 24 false, .writeStrobed (some 7) [0xA7],
        .gpioWrite 24 false, .writeStrobed (some 7) [0xA0], .gpioWrite 24 false, .writeStrobed (some 7) [0xC0]] := by decide

/-- V-S6. -/
theorem test_shutdown :
    (after .shutdown activeA).trace = [c [0xAE], .closeAddressed (some 7), .hwShutdown] ∧
    (after .shutdown activeA).session = .closed ∧ (after .shutdown activeA).handle = none := by decide

/-- V-S8. -/
theorem test_shutdown_idle : (after .shutdown idle).trace = [] ∧ (after .shutdown idle).session = .uninitialized := by decide

/-- V-F1, in its first page and its cursor. -/
theorem test_fill :
    (after (.fill 0xAA) activeA).trace.take 4 = [c [0xB0], c [0x00], c [0x10], d (List.replicate 128 0xAA)] ∧
    (after (.fill 0xAA) activeA).trace.length = 32 ∧ (after (.fill 0xAA) activeA).cursor = 1024 := by decide +kernel

/-- V-F4. -/
theorem test_fill_idle : (after (.fill 0) idle).trace = [] ∧ (after (.fill 0) idle).responses = [some .minusOne] := by decide

/-- V-P2. -/
theorem test_set_pixel :
    (after (.setPixel 5 13 1) activeA).trace = [c [0xB1], c [0x05], c [0x10], d [0x20]] ∧
    (after (.setPixel 5 13 1) activeA).shadow.read 133 = 0x20 ∧ (after (.setPixel 5 13 1) activeA).cursor = 134 := by decide

/-- V-P9: index mode accepts a point off the panel whose index is in the shadow. -/
theorem test_set_pixel_off_panel :
    (after (.setPixel (-1) 64 1) activeA).trace = [c [0xB8], c [0x0F], c [0x1F], d [0x01]] ∧
    (after (.setPixel (-1) 64 1) activeA).shadow.read 1023 = 0x01 := by decide

/-- V-W1, its second character, at V-W2's last cell: the text is cut to the one column left. -/
theorem test_write_string_small :
    (after (.writeString 15 7 [0x49, 0x48] false) fonts).trace = [c [0xB7], c [0x08], c [0x17], d glyphI] ∧
    (after (.writeString 15 7 [0x49, 0x48] false) fonts).cursor = 1024 := by decide

/-- V-W5. -/
theorem test_write_string_large :
    (after (.writeString 7 0 [0x41, 0x41] true) fonts).trace =
      [c [0xB0], c [0x00], c [0x17], d stripA, c [0xB1], c [0x00], c [0x17], d stripA, c [0xB2], c [0x00], c [0x17], d stripA] ∧
    (after (.writeString 7 0 [0x41, 0x41] true) fonts).cursor = 384 := by decide

/-- V-S9 on both transports. -/
theorem test_set_contrast :
    (after (.setContrast 0x7F) activeA).trace = [c [0x81, 0x7F]] ∧
    (after (.setContrast 0x7F) activeS).trace = [.gpioWrite 24 false, .writeStrobed (some 7) [0x81, 0x7F]] := by decide

/-- V-C1. -/
theorem test_set_cursor :
    (after (.setCursor 0x75 3) activeA).trace = [c [0xB3], c [0x05], c [0x17]] ∧ (after (.setCursor 0x75 3) activeA).cursor = 501 ∧
    (after (.setCursor (-1) 8) activeA).trace = [c [0xB8], c [0x0F], c [0x1F]] ∧
    (after (.setCursor 0 (-1)) activeA).trace = [c [0xFF], c [0x00], c [0x10]] := by decide

/-- V-C2. -/
theorem test_write_command :
    (after (.writeCommand [0xB3]) activeA).trace = [c [0xB3]] ∧ (after (.writeCommand [0xB3]) activeA).cursor = 0 := by decide

/-- V-C3: in range. -/
theorem test_write_data :
    (after (.writeData [0x20]) { activeA with cursor := 130 }).trace = [d [0x20]] ∧
    (after (.writeData [0x20]) { activeA with cursor := 130 }).shadow.read 130 = 0x20 ∧
    (after (.writeData [0x20]) { activeA with cursor := 130 }).cursor = 131 := by decide

/-- V-C3: out of range, `ShadowRange(1020, 8)` with no event. -/
theorem test_write_data_range :
    (after (.writeData (List.replicate 8 0)) { activeA with cursor := 1020 }).fault =
      some ⟨.shadowRange 1020 8, .record (.writeData (List.replicate 8 0))⟩ ∧
    (after (.writeData (List.replicate 8 0)) { activeA with cursor := 1020 }).trace = [] := by decide

/-- V-XH at code 0: the glyph in the table. -/
theorem test_xform8 :
    (after .xform8 { idle with font8 := ⟨cellsFrom 0 [0x42, 0x42, 0x42, 0x7E, 0x42, 0x42, 0x42, 0], []⟩ }).font8.readBytes 0 8 =
      [0, 0x7F, 8, 8, 8, 8, 0x7F, 0] := by
  show (rotateFont8 _).readBytes 0 8 = _
  simp only [Memory.readBytes, read_rotateFont8]
  decide

/-- V-X15 in the first strip of code 0. -/
theorem test_xform16 :
    (after .xform16 { idle with font16 := ⟨cellsFrom 0 [0x0F, 1], []⟩ }).font16.readBytes 0 16 =
      [0, 0, 0, 0, 1, 1, 1, 1, 0, 0, 0, 0, 0, 0, 0, 1] := by
  show (rotateFont16 _).readBytes 0 16 = _
  simp only [Memory.readBytes, read_rotateFont16]
  decide

theorem test_display_off : (after (.displayOff) activeA).trace = [c [0xAE]] := by decide
theorem test_set_contrast_cmd : (after (.setContrastCmd 0x7F) activeA).trace = [c [0x81, 0x7F]] := by decide
theorem test_page_select : (after (.pageSelect 3) activeA).trace = [c [0xB3]] := by decide
theorem test_column_low : (after (.columnLow 5) activeA).trace = [c [0x05]] := by decide
theorem test_column_high : (after (.columnHigh 7) activeA).trace = [c [0x17]] := by decide
theorem test_invert_display : (after (.invertDisplay) activeA).trace = [c [0xA7]] := by decide
theorem test_remap_a0 : (after (.remapA0) activeA).trace = [c [0xA0]] := by decide
theorem test_remap_c0 : (after (.remapC0) activeA).trace = [c [0xC0]] := by decide
theorem test_set_multiplex : (after (.setMultiplex 0x3F) activeA).trace = [c [0xA8, 0x3F]] := by decide
theorem test_set_display_offset : (after (.setDisplayOffset 0) activeA).trace = [c [0xD3, 0x00]] := by decide
theorem test_set_start_line : (after (.setStartLine 0x3F) activeA).trace = [c [0x7F]] := by decide
theorem test_segment_remap_a1 : (after (.segmentRemapA1) activeA).trace = [c [0xA1]] := by decide
theorem test_com_scan_remapped : (after (.comScanRemapped) activeA).trace = [c [0xC8]] := by decide
theorem test_set_com_pins : (after (.setComPins 0x12) activeA).trace = [c [0xDA, 0x12]] := by decide
theorem test_display_follow_ram : (after (.displayFollowRam) activeA).trace = [c [0xA4]] := by decide
theorem test_normal_display : (after (.normalDisplay) activeA).trace = [c [0xA6]] := by decide
theorem test_set_clock_div : (after (.setClockDiv 0x80) activeA).trace = [c [0xD5, 0x80]] := by decide
theorem test_charge_pump : (after (.chargePump 0x14) activeA).trace = [c [0x8D, 0x14]] := by decide
theorem test_display_on : (after (.displayOn) activeA).trace = [c [0xAF]] := by decide
theorem test_set_addressing_mode : (after (.setAddressingMode 2) activeA).trace = [c [0x20, 0x02]] := by decide

/-! ## Faults and the host's list -/

/-- V-S5. -/
theorem test_reinit :
    (after (.init 1 0x3C false false false 0 0) activeA).fault =
      some ⟨.reinitActive, .record (.init 1 0x3C false false false 0 0)⟩ := by decide

/-- V-W8: a large text at row 6 faults at page 8, after two strips. -/
theorem test_write_string_low_row :
    (after (.writeString 0 6 [0x41] true) fonts).fault = some ⟨.shadowRange 1024 16, .record (.writeString 0 6 [0x41] true)⟩ ∧
    (after (.writeString 0 6 [0x41] true) fonts).trace =
      [c [0xB6], c [0x00], c [0x10], d stripA, c [0xB7], c [0x00], c [0x10], d stripA, c [0xB8], c [0x00], c [0x10]] ∧
    (after (.writeString 0 6 [0x41] true) fonts).shadow.readBytes 896 16 = stripA := by decide

/-- V-W7: a code without a glyph faults after the characters before it. -/
theorem test_write_string_glyph :
    (after (.writeString 0 0 [0x41, 0x80] true) fonts).fault =
      some ⟨.glyphRange 0x80, .record (.writeString 0 0 [0x41, 0x80] true)⟩ ∧
    (after (.writeString 0 0 [0x41, 0x80] true) fonts).cursor = 272 := by decide

/-- V-W10b: the argument check comes before the fit check. -/
theorem test_write_string_bad_argument :
    (after (.writeString 0 8 [] false) fonts).fault = some ⟨.badArgument 0 8, .record (.writeString 0 8 [] false)⟩ := by decide

/-- V-S4, third row: INIT fails at the first register call. -/
theorem test_init_fails :
    (after (.init 0 0 false false true 24 25) { idle with answers := [.ok 0, .ok 7, .error] }).trace =
      [.hwInit, .openStrobed 0 400000, .gpioRegister 24] ∧
    (after (.init 0 0 false false true 24 25) { idle with answers := [.ok 0, .ok 7, .error] }).responses = [some .one] ∧
    (after (.init 0 0 false false true 24 25) { idle with answers := [.ok 0, .ok 7, .error] }).handle = none := by decide

/-- V-C4: an error answer to a write changes nothing. -/
theorem test_write_data_error :
    (after (.writeData [0x5A]) { activeA with answers := [.error] }).shadow.read 0 = 0x5A := by decide

/-- V-E2: bytes that are no request raise `IllegalRequest(0x07)`. -/
theorem test_step_illegal :
    step (given activeA (.bytes .host [0x07]) false) =
      .next { given activeA (.bytes .host [0x07]) false with
        fault := some ⟨.illegalRequest (some 0x07), .bytes .host [0x07]⟩ } := rfl

/-- Bytes on the controller's port that start no command are refused. -/
theorem test_step_unassigned :
    step (given activeA (.bytes .controller [0xB8]) false) = .refused (.unassignedCode .controller (some 0xB8)) := rfl

/-- A step runs the request at the index: FILL before INIT answers -1 (P-3, request 1). -/
theorem test_step_fill : step (given idle (.bytes .host [0x03, 0x55]) false) =
    .next { given idle (.bytes .host [0x03, 0x55]) false with responses := [some .minusOne], next := 1 } := rfl

/-! ## A concrete case for the hypotheses of each statement -/

/-- The invariant of a state with empty memories and the default parameters. -/
theorem inv_activeA : activeA.Inv := by
  constructor <;> first | exact Memory.wf_empty _ _ | decide

theorem inv_idle : idle.Inv := by
  constructor <;> first | exact Memory.wf_empty _ _ | decide

theorem witness_DecodeOfEncode :
    Instr.wellFormed (.init 255 0 true false true 65535 0) = true ∧ Instr.wellFormed (.setPixel (-32768) 32767 0xFF) = true ∧
    Instr.wellFormed (.writeString (-128) 127 (List.replicate 255 0x41) true) = true ∧
    Instr.wellFormed (.writeCommand (List.replicate 21 0)) = true ∧ Instr.wellFormed (.writeData (List.replicate 256 0)) = true ∧
    Instr.wellFormed (.pageSelect 7) = true := by decide +kernel

theorem witness_EncodeOfDecode :
    decode .host [0x04, 0x00, 0x80, 0xFF, 0x7F, 0x01, 0x02] = .instr (.setPixel (-32768) 32767 0x01) [0x02] ∧
    decode .sequencer [0x82, 0x00, 0x5A] = .instr (.writeData [0x5A]) [] ∧ decode .controller [0xB7] = .instr (.pageSelect 7) [] := by
  decide

theorem witness_OpcodeRowsDisjoint :
    (Instr.row (.pageSelect 0)).port = (Instr.row (.pageSelect 7)).port ∧
    0xB7#8 &&& (Instr.row (.pageSelect 0)).mask = (Instr.row (.pageSelect 0)).value ∧
    0xB7#8 &&& (Instr.row (.pageSelect 7)).mask = (Instr.row (.pageSelect 7)).value := by decide

theorem witness_StepRunsDecoded :
    ((given idle (.bytes .host [0x03, 0x55]) false).fault = none ∧
      (given idle (.bytes .host [0x03, 0x55]) false).program[0]? = some ⟨.bytes .host [0x03, 0x55], false⟩ ∧
      decode .host [0x03, 0x55] = .instr (.fill 0x55) []) ∧
    ((given idle (.record (.setPixel 40000 0 1)) false).fault = none ∧
      (given idle (.record (.setPixel 40000 0 1)) false).program[0]? = some ⟨.record (.setPixel 40000 0 1), false⟩) ∧
    ((given idle (.bytes .sequencer [0x83, 0xFF]) false).program[0]? = some ⟨.bytes .sequencer [0x83, 0xFF], false⟩ ∧
      decode .sequencer [0x83, 0xFF] = .instr .xform8 [0xFF]) := by decide

theorem witness_StepWaitsForRequest : idle.fault = none ∧ idle.program[idle.next]? = none := by decide

theorem witness_FaultedTakesNoRequest :
    (idle.raise .reinitActive (.record .shutdown)).fault = some ⟨.reinitActive, .record .shutdown⟩ := by decide

theorem witness_OverlapRefused :
    (given idle (.record .shutdown) true).fault = none ∧
    (given idle (.record .shutdown) true).program[0]? = some ⟨.record .shutdown, true⟩ := by decide

theorem witness_IllegalRequestRaised :
    (given idle (.bytes .host [0x07]) false).fault = none ∧
    (given idle (.bytes .host [0x07]) false).program[0]? = some ⟨.bytes .host [0x07], false⟩ ∧
    decode .host [0x07] = .reject (.unassigned 0x07) ∧ decode .host [] = .reject .empty := by decide

/-- OtherPortsRefuse: bytes that do not decode on either port, and a case of each clause of the rejection at its bound. -/
theorem witness_OtherPortsRefuse :
    (Port.sequencer ≠ .host ∧ (given idle (.bytes .sequencer [0x85]) false).fault = none ∧
      (given idle (.bytes .sequencer [0x85]) false).program[0]? = some ⟨.bytes .sequencer [0x85], false⟩ ∧
      decode .sequencer [0x85] = .reject (.unassigned 0x85)) ∧
    (Port.controller ≠ .host ∧
      (given idle (.bytes .controller [0xB8]) false).program[0]? = some ⟨.bytes .controller [0xB8], false⟩ ∧
      decode .controller [0xB8] = .reject (.unassigned 0xB8)) ∧
    decode .sequencer [0x80, 0, 0, 0] = .reject (.short 0x80) ∧ decode .sequencer [0x81, 0x02, 1, 2, 3] = .reject (.badLength 0x81) ∧
    decode .sequencer [0x82, 0x01, 0x5A] = .reject (.short 0x82) ∧ decode .controller [0xD3] = .reject (.short 0xD3) := by decide

theorem witness_FetchWordRunsNext : idle.fault = none ∧ decodeTableWord 8 0xAE = some .displayOff ∧
    decodeTableWord 64 0x01 = some (.init 0 0 false false false 0 0) := by decide

/-- ContrastResult, ShutdownResult, FillResult, NotActiveFails: both clauses. -/
theorem witness_ContrastResult : activeA.session = .active ∧ idle.session ≠ .active := by decide
theorem witness_ShutdownResult : activeS.session = .active ∧ idle.session ≠ .active := by decide
theorem witness_FillResult : activeS.session = .active ∧ idle.session ≠ .active := by decide
theorem witness_NotActiveFails : idle.session ≠ .active ∧ (after .shutdown activeA).session ≠ .active := by decide

theorem witness_InitAddressedResult :
    idle.session ≠ .active ∧ idle.answerAt 0 = .ok 0 ∧ idle.answerAt 1 = .ok 7 := by decide

theorem witness_InitStrobedResult : idle.session ≠ .active ∧ idle.answerAt 0 = .ok 0 ∧ idle.answerAt 1 = .ok 7 ∧
    idle.answerAt 2 = .ok 0 ∧ idle.answerAt 3 = .ok 0 := by decide

/-- InitFailureResult: a state for each clause. -/
theorem witness_InitFailureResult :
    State.answerAt { idle with answers := [.error] } 0 = .error ∧
    (State.answerAt { idle with answers := [.ok 0, .error] } 0 ≠ .error ∧
      State.answerAt { idle with answers := [.ok 0, .error] } 1 = .error) ∧
    (State.answerAt { idle with answers := [.ok 0, .ok 7, .error] } 0 ≠ .error ∧
      State.answerAt { idle with answers := [.ok 0, .ok 7, .error] } 1 ≠ .error ∧
      State.answerAt { idle with answers := [.ok 0, .ok 7, .error] } 2 = .error) ∧
    (State.answerAt { idle with answers := [.ok 0, .ok 7, .ok 0, .error] } 0 ≠ .error ∧
      State.answerAt { idle with answers := [.ok 0, .ok 7, .ok 0, .error] } 1 ≠ .error ∧
      State.answerAt { idle with answers := [.ok 0, .ok 7, .ok 0, .error] } 2 ≠ .error ∧
      State.answerAt { idle with answers := [.ok 0, .ok 7, .ok 0, .error] } 3 = .error) ∧ idle.session ≠ .active := by decide

/-- WriteCommandResult: both transports. -/
theorem witness_WriteCommandResult : activeA.kind = .addressed ∧ activeS.kind = .strobed := by decide

theorem witness_InitWhileActiveRaises : activeA.session = .active := by decide

/-- PositionBytes: both ends of the pages. -/
theorem witness_PositionBytes :
    ((pageCmd 0).toNat : Int) = 0xB0 + 0 ∧ ((pageCmd 7).toNat : Int) = 0xB0 + 7 := by decide

/-- WriteDataResult: a write that ends at 1024, and one on each side of the range. -/
theorem witness_WriteDataResult :
    ((0 : Int) ≤ 1016 ∧ (1016 : Int) + (List.replicate 8 (0 : Byte)).length ≤ 1024) ∧ (-1 : Int) < 0 ∧
    (1024 : Int) < 1017 + (List.replicate 8 (0 : Byte)).length ∧ State.cursor { activeA with cursor := 1016 } = 1016 ∧
    (1024 : Int) + ([] : List Byte).length ≤ 1024 ∧ activeA.kind = .addressed ∧ activeS.kind = .strobed := by decide

theorem witness_ControllerCommandsSend : Instr.displayOff.port = .controller ∧ (Instr.setAddressingMode 2).port = .controller := by
  decide

theorem witness_WireImage : activeA.kind = .addressed ∧ activeS.kind = .strobed := by decide

theorem witness_Rot8LoopAgrees : glyphI.length = 8 := by decide
theorem witness_Rot8Turns : glyphI.length = 8 ∧ (0 : Nat) < 8 ∧ (7 : Nat) < 8 := by decide
theorem witness_Rot16Halves : stripA.length = 16 := by decide
theorem witness_Rot16OrderFourteen : stripA.length = 16 ∧ 0 < 1 ∧ 13 < 14 := by decide

/-- Xform8Result, Xform16Result: the last glyph, the last strip, the last bit, and an index outside. -/
theorem witness_Xform8Result : 255 < 256 ∧ 7 < 8 ∧ 2048 ≤ 2048 := by decide
theorem witness_Xform16Result : 127 < 128 ∧ 3 < 4 ∧ 7 < 8 ∧ 8192 ≤ 8192 := by decide

/-- OutOfBoundsFails: the first index past the shadow, and a text with no column left. -/
theorem witness_OutOfBoundsFails :
    activeA.session = .active ∧ pixOk activeA.params.pixelBounds 0 64 = false ∧
    (0 ≤ (16 : Int) ∧ 0 ≤ (7 : Int) ∧ (7 : Int) ≤ 7 ∧ min (([0x48] : List Byte).length : Int) (cellsPerRow false - 16) ≤ 0) := by
  decide

theorem witness_PixelModesAgree : (0 : Int) ≤ 127 ∧ (127 : Int) ≤ 127 := by decide
theorem witness_PixelByteRule : 7 < 8 := by decide
theorem witness_PixelBitFollowsColor : activeA.session = .active ∧ 127 < 128 ∧ 63 < 64 := by decide

/-- SetPixelResult: a pixel outside, a byte that stays (V-P3), a byte that changes at the last index (V-P5). -/
theorem witness_SetPixelResult :
    idle.session ≠ .active ∧ activeA.session = .active ∧ pixOk activeA.params.pixelBounds 0 (-1) = false ∧
    pixOk activeA.params.pixelBounds 127 63 = true ∧ pixelByte (activeA.shadow.read 1023) 63 0 = activeA.shadow.read 1023 ∧
    pixelByte (activeA.shadow.read 1023) 63 0xFF ≠ activeA.shadow.read 1023 := by decide

theorem witness_SetPixelTwiceWritesOnce :
    activeA.session = .active ∧ pixOk activeA.params.pixelBounds 5 13 = true ∧ ((0x01 : Byte) = 0 ↔ (0x80 : Byte) = 0) ∧
    exec (.setPixel 5 13 0x01) activeA = .next (after (.setPixel 5 13 0x01) activeA) :=
  ⟨by decide, by decide, by decide, rfl⟩

theorem witness_BadArgumentRaised :
    activeA.session = .active ∧ (-1 : Int) < 0 ∧ (7 : Int) < 8 := by decide

/-- SmallTextResult: the last cell; LargeTextResult: the last cell and the last row it may start at. -/
theorem witness_SmallTextResult :
    fonts.session = .active ∧ (0 : Int) ≤ 15 ∧ (15 : Int) < 16 ∧ (0 : Int) ≤ 7 ∧ (7 : Int) ≤ 7 ∧ ([0x49, 0x48] : List Byte) ≠ [] := by
  decide
theorem witness_LargeTextResult :
    fonts.session = .active ∧ (0 : Int) ≤ 7 ∧ (7 : Int) < 8 ∧ (0 : Int) ≤ 5 ∧ (5 : Int) ≤ 5 ∧ ([0x41, 0xFF] : List Byte) ≠ [] ∧
    ∀ x ∈ ([0x41, 0xFF] : List Byte).take (8 - (7 : Int)).toNat, x.toNat < 128 := by decide

theorem witness_GlyphRangeRaised :
    fonts.session = .active ∧ ([0x41, 0x80] : List Byte).take (8 - (0 : Int)).toNat = [0x41] ++ 0x80 :: [] ∧
    (∀ x ∈ ([0x41] : List Byte), x.toNat < 128) ∧ 128 ≤ (0x80 : Byte).toNat ∧ (0 : Int) ≤ 0 ∧ (0 : Int) ≤ 5 ∧ (5 : Int) ≤ 5 ∧
    ((7 : Int) ≤ 7 ∧ ([] : List Byte) = []) ∧ ([0x80] : List Byte).take (8 - (7 : Int)).toNat = [] ++ 0x80 :: [] := by decide

theorem witness_LargeTextLowRowsRaise :
    fonts.session = .active ∧ (0 : Int) ≤ 7 ∧ (7 : Int) < 8 ∧ ((6 : Int) = 6 ∨ (6 : Int) = 7) ∧ ((7 : Int) = 6 ∨ (7 : Int) = 7) ∧
    ([0x41] : List Byte) = 0x41 :: [] ∧ (0x41 : Byte).toNat < 128 := by decide

/-- StepKeepsInvariant, TraceOnlyGrows, InputsKept: an active state with a request to run. -/
theorem witness_StepKeepsInvariant :
    (given activeA (.record (.setContrast 1)) false).Inv ∧
    step (given activeA (.record (.setContrast 1)) false) =
      .next (after (.setContrast 1) (given activeA (.record (.setContrast 1)) false)) := by
  refine ⟨?_, rfl⟩
  constructor <;> first | exact Memory.wf_empty _ _ | decide

theorem witness_TraceOnlyGrows : step (given activeA (.record (.setContrast 1)) false) =
    .next (after (.setContrast 1) (given activeA (.record (.setContrast 1)) false)) := rfl
theorem witness_InputsKept : step (given activeA (.record .shutdown) false) =
    .next (after .shutdown (given activeA (.record .shutdown) false)) := rfl

/-- SessionWriters, TableWriters, ShadowWriters, ReturnsOrRaises: an instruction for each case. -/
theorem witness_SessionWriters :
    exec (.fill 0) idle = .next (after (.fill 0) idle) ∧
    exec (.init 1 60 false false false 0 0) idle = .next (after (.init 1 60 false false false 0 0) idle) ∧
    exec .shutdown activeA = .next (after .shutdown activeA) := ⟨rfl, rfl, rfl⟩
theorem witness_TableWriters :
    exec .xform8 idle = .next (after .xform8 idle) ∧ exec .xform16 idle = .next (after .xform16 idle) := ⟨rfl, rfl⟩
theorem witness_ShadowWriters :
    exec (.setPixel 0 0 1) activeA = .next (after (.setPixel 0 0 1) activeA) ∧
    exec (.writeData [1]) idle = .next (after (.writeData [1]) idle) ∧ 1024 ≤ 1024 := ⟨rfl, rfl, by decide⟩
theorem witness_ReturnsOrRaises :
    exec (.setContrast 0) idle = .next (after (.setContrast 0) idle) ∧
    exec (.init 0 0 false false false 0 0) activeA = .next (after (.init 0 0 false false false 0 0) activeA) := ⟨rfl, rfl⟩

theorem witness_InContractNeverRaises :
    (Instr.writeString 7 5 [0x7F] true).port = .host ∧ (Instr.writeString 7 5 [0x7F] true).inContract = true ∧
    (Instr.setPixel 127 63 1).inContract = true ∧ (Instr.writeString 15 7 [0xFF] false).inContract = true ∧
    (Instr.isInit (.init 1 60 false false false 0 0) = true → idle.session ≠ .active) := by decide

/-- WriteAnswersIgnored: for INIT, two lists of answers alike in the first four. -/
theorem witness_WriteAnswersIgnored :
    Instr.isInit (.fill 0) = false ∧
    ∀ k < 4, State.answerAt { idle with answers := [.ok 0, .ok 7, .ok 0, .ok 0, .error], drawCount := 3 } k = idle.answerAt k := by
  decide

theorem witness_CursorUnobservable : (Instr.writeString 0 0 [0x41] false).port = .host := by decide

/-- FailedRequestKeepsState: a -1 and a 1. -/
theorem witness_FailedRequestKeepsState :
    (after (.fill 0) idle).responses = idle.responses ++ [some .minusOne] ∧ Code.minusOne ≠ .zero ∧
    (after (.init 0 0 false false false 0 0) { idle with answers := [.error] }).responses = idle.responses ++ [some .one] ∧
    Code.one ≠ .zero := by decide

end Sys2Proof.Tests
end

/-! ## TRACE only grows (10_state R44) -/

namespace Sys2Proof.Machine

/-- What operations inside a request emit is appended. -/
theorem Inside.trace_prefix {s t : State} {e : List Event} {n : Nat} (h : Inside s t e n) : s.trace <+: t.trace :=
  h.emitted.trace ▸ List.prefix_append ..

/-- Neither end of a request, the response or the fault, touches the trace. -/
theorem Draws.trace_prefix {s t : State} {i : Instr} (h : Draws s i t) : s.trace <+: t.trace := by
  obtain ⟨u, e, n, hu, ⟨c, rfl⟩ | ⟨c, rfl⟩⟩ := h
  · simpa only [State.ret_trace] using hu.trace_prefix
  · simpa only [State.raise_trace] using hu.trace_prefix

theorem State.startSession_trace_prefix (s : State) (handle : Nat) (flip invert strobed : Bool)
    (dcLine resetLine : Nat) :
    s.trace <+: (s.startSession handle flip invert strobed dcLine resetLine).trace := by
  obtain ⟨-, -, -, -, -, -, e, he⟩ := s.startSession_spec handle flip invert strobed dcLine resetLine
  exact he ▸ List.prefix_append ..

/-- SHUTDOWN from Active emits display-off's transfer, the close call and the bus shutdown (R156). -/
theorem State.closeSession_trace (s : State) :
    s.closeSession.trace = s.trace ++ (s.commandEvents [0xAE] ++ [s.closeEvent, .hwShutdown]) := by
  simp [State.closeSession]

/-- Every instruction only appends to the trace. -/
theorem exec_trace_prefix {i : Instr} {s t : State} (h : exec i s = .next t) : s.trace <+: t.trace := by
  rcases exec_cases h with hd | ⟨-, -, ⟨events, calls, rfl⟩ | ⟨u, handle, f, v, st, d, r, ⟨e, n, hu⟩, -, rfl⟩⟩ |
    ⟨-, -, rfl⟩ | ⟨-, rfl⟩ | ⟨-, rfl⟩
  · exact hd.trace_prefix
  · exact List.prefix_append s.trace events
  · exact hu.trace_prefix.trans (u.startSession_trace_prefix ..)
  · rw [State.ret_trace, State.closeSession_trace]
    exact List.prefix_append ..
  · rw [State.ret_trace, State.xform8_trace]
  · rw [State.ret_trace, State.xform16_trace]

theorem step_trace_prefix {s t : State} (h : step s = .next t) : s.trace <+: t.trace := by
  rcases step_cases h with rfl | ⟨c, p, rfl⟩ | ⟨i, hi⟩
  · exact List.prefix_rfl
  · rw [State.raise_trace]
  · exact exec_trace_prefix hi

/-- Settles O53: reset starts with no events, and the old trace is a prefix of the new one after every step. -/
theorem traceOnlyGrows : Obligations.TraceOnlyGrows := by
  refine ⟨rfl, fun s t h => ?_⟩
  obtain ⟨events, he⟩ := step_trace_prefix h
  exact ⟨events, he.symm⟩

end Sys2Proof.Machine

/-! ## A pixel's shadow bit follows the color (20_memory R71) -/

namespace Sys2Proof.Machine

/-- R235: the mask sets or clears the pixel's bit and leaves the others. -/
theorem pixelByte_getLsbD (old color : Byte) (y : Int) {k : Nat} (hk : k < 8) :
    (pixelByte old y color).getLsbD k = if k = (y % 8).toNat then decide (color ≠ 0) else old.getLsbD k := by
  unfold pixelByte
  split
  case isTrue hc =>
    rw [BitVec.getLsbD_or, pixelMask_getLsbD y hk, decide_eq_true hc]
    split <;> simp [*]
  case isFalse hc =>
    rw [BitVec.getLsbD_and, BitVec.getLsbD_not, pixelMask_getLsbD y hk, decide_eq_false hc]
    split <;> simp [*]

/-- R233, R234: both modes accept every pixel of the panel. -/
theorem pixOk_of_onPanel (m : PixelBoundsMode) {x y : Int} (hx : 0 ≤ x ∧ x ≤ 127) (hy : 0 ≤ y ∧ y ≤ 63) :
    pixOk m x y = true := by
  cases m with
  | index =>
    simp only [pixOk, Bool.and_eq_true, decide_eq_true_eq]
    simp only [pixelIndex, cursorOf, div8, displayWidth]
    omega
  | coordinate => simp [pixOk, hx, hy]

/-- Drawing a pixel whose index is in the shadow never faults, and whether or not it writes, the shadow byte ends as R235's new
byte and every other byte as before (R236). -/
theorem State.drawPixel_go (s : State) {x y : Int} (c : Byte) (h : 0 ≤ y / 8 * 128 + x ∧ y / 8 * 128 + x ≤ 1023) :
    ∃ t e n, s.drawPixel x y c = .go t ∧ Inside s t e n ∧
      ∀ a, t.shadow.read a = if a = (y / 8 * 128 + x).toNat then pixelByte (s.shadow.read a) y c else s.shadow.read a := by
  rw [s.drawPixel_eq c h]
  split
  case isTrue same =>
    refine ⟨s, [], 0, rfl, Inside.refl s, fun a => ?_⟩
    split
    · next ha => rw [ha, same]
    · rfl
  case isFalse =>
    obtain ⟨t, ht, hi, hs, -⟩ := setCursor_writeData_go s x (y / 8)
      [pixelByte (s.shadow.read (y / 8 * 128 + x).toNat) y c] h.1 (by simp only [List.length_singleton]; omega)
    refine ⟨t, _, _, ht, hi, fun a => ?_⟩
    rw [hs, Memory.writeBytes, Memory.writeBytes, Memory.read_write]
    by_cases ha : a = (y / 8 * 128 + x).toNat
    · simp [ha]
    · rw [if_neg (Ne.symm ha), if_neg ha]

/-- SET_PIXEL on an accepted pixel is the drawing, then the response 0 (R236, R284). -/
theorem exec_setPixel_of_pixOk {s : State} {x y : Int} (c : Byte) (ha : s.session = .active)
    (h : pixOk s.params.pixelBounds x y = true) :
    exec (.setPixel x y c) s = .next ((s.drawPixel x y c).finish (.setPixel x y c) (some .zero)) := by
  change execSetPixel x y c s = _
  rw [execSetPixel, if_pos ha, if_pos h]

/-- Settles O38: the panel's pixel is accepted in either mode, and the byte it leaves is R235's, whose bit `mod8(y)` is the
color's. -/
theorem pixelBitFollowsColor : Obligations.PixelBitFollowsColor := by
  intro x y color s ha hx hy
  have hok : pixOk s.params.pixelBounds x y = true := pixOk_of_onPanel _ (by omega) (by omega)
  obtain ⟨t, _, _, ht, hi, hr⟩ := s.drawPixel_go color (pixOk_range hok)
  obtain ⟨-, -, -, -, hret⟩ := hi.ret (some .zero)
  refine ⟨t.ret (some .zero), ?_, ?_, hret⟩
  · rw [exec_setPixel_of_pixOk color ha hok, ht, Flow.finish_go]
  · have hidx : y / 8 * 128 + x = ((y : Int) / 8 * 128 + x).toNat := by omega
    have hbit : y % 8 = ((y : Int) % 8).toNat := by omega
    rw [State.ret_shadow, hr, if_pos hidx, pixelByte_getLsbD _ _ _ (by omega), if_pos hbit]

end Sys2Proof.Machine

/-! ## The wire image of a transfer (30_encoding R127) -/

namespace Sys2Proof.Machine

theorem State.transferEvents_addressed {s : State} (h : s.kind = .addressed) (ctrl : Byte) (level : Bool)
    (bytes : List Byte) : s.transferEvents ctrl level bytes = [.writeAddressed s.handle ctrl bytes] := by
  simp only [State.transferEvents, h]

theorem State.transferEvents_strobed {s : State} (h : s.kind = .strobed) (ctrl : Byte) (level : Bool)
    (bytes : List Byte) :
    s.transferEvents ctrl level bytes = [.gpioWrite s.dcLine level, .writeStrobed s.handle bytes] := by
  simp only [State.transferEvents, h]

/-- An addressed transfer, command or data, shows its control byte and then the bytes. -/
theorem State.transferEvents_wire_addressed {s : State} (h : s.kind = .addressed) (ctrl : Byte) (level : Bool)
    (bytes : List Byte) : (s.transferEvents ctrl level bytes).filterMap Event.wire = [[ctrl] ++ bytes] := by
  rw [State.transferEvents_addressed h]
  rfl

/-- A strobed transfer, command or data, shows the bytes alone: the level of the select line is not on the wire. -/
theorem State.transferEvents_wire_strobed {s : State} (h : s.kind = .strobed) (ctrl : Byte) (level : Bool)
    (bytes : List Byte) : (s.transferEvents ctrl level bytes).filterMap Event.wire = [bytes] := by
  rw [State.transferEvents_strobed h]
  rfl

/-- Settles O25: the images of the two write events are their definition's, and a command and a data transfer are one transfer
with its own control byte and level. -/
theorem wireImage : Obligations.WireImage := by
  intro bytes s
  refine ⟨fun _ _ => rfl, fun _ => rfl, fun addressed => ?_, fun strobed => ?_⟩
  · exact ⟨State.transferEvents_wire_addressed addressed .., State.transferEvents_wire_addressed addressed ..⟩
  · exact ⟨State.transferEvents_wire_strobed strobed .., State.transferEvents_wire_strobed strobed ..⟩

end Sys2Proof.Machine

/-! ## SET_CONTRAST (40_session R158) -/

namespace Sys2Proof.Machine

/-- A request whose one operation is a WRITE_COMMAND leaves one command transfer and its response (R125, R160). -/
theorem State.writeCommand_ret (s : State) (bytes : List Byte) (code : Option Code) :
    (s.writeCommand bytes).ret code = s.sentCommand bytes code := by
  rw [State.writeCommand_eq, State.ret, State.sentCommand, List.drop_one]

theorem State.ret_eq_onlyAnswered (s : State) (code : Option Code) : s.ret code = s.onlyAnswered code := rfl

/-- R158's two branches: one WRITE_COMMAND and the response 0 from Active, the response -1 alone otherwise. -/
theorem exec_setContrast (level : Byte) (s : State) :
    exec (.setContrast level) s =
      .next (if s.session = .active then (s.writeCommand [0x81, level]).ret (some .zero) else s.ret (some .minusOne)) :=
  rfl

/-- Settles O14: each branch of R158 is the next state the obligation names. -/
theorem contrastResult : Obligations.ContrastResult := by
  intro level s
  refine ⟨fun active => ?_, fun inactive => ?_⟩
  · rw [exec_setContrast, if_pos active, State.writeCommand_ret]
  · rw [exec_setContrast, if_neg inactive, State.ret_eq_onlyAnswered]

end Sys2Proof.Machine

/-! ## The pixel test and the pixel byte (42_drawing R233, R235) -/

namespace Sys2Proof.Machine

/-- R233: in index mode the test is on the shadow index alone. -/
theorem pixOk_index_iff (x y : Int) :
    pixOk .index x y = true ↔ 0 ≤ y / 8 * 128 + x ∧ y / 8 * 128 + x ≤ 1023 := by
  rw [pixOk, Bool.and_eq_true, decide_eq_true_eq, decide_eq_true_eq]
  rfl

/-- Settles O35: the default parameters select index mode, whose test is on the shadow index. -/
theorem pixelIndexTest : Obligations.PixelIndexTest := ⟨rfl, pixOk_index_iff⟩

/-- Settles O37: the mask is the pixel's bit alone, so setting or clearing it leaves the other seven. -/
theorem pixelByteRule : Obligations.PixelByteRule :=
  fun old color y _ hk => pixelByte_getLsbD old color y hk

end Sys2Proof.Machine

/-! ## WRITE_STRING in the large font (42_drawing R239, R242) -/

namespace Sys2Proof.Machine

/-- R243(a): the cells WRITE_STRING does not refuse. -/
theorem badCell_eq_false_iff (col row : Int) : badCell col row = false ↔ 0 ≤ col ∧ 0 ≤ row ∧ row ≤ 7 := by
  simp only [badCell, Bool.or_eq_false_iff, decide_eq_false_iff_not]
  omega

/-- R239 past its checks: a nonempty text with a column left draws the characters that fit and answers 0. -/
theorem exec_writeString_of_fits {s : State} {col row : Int} {text : List Byte} (large : Bool) (active : s.session = .active)
    (cell : 0 ≤ col ∧ 0 ≤ row ∧ row ≤ 7) (hcol : col < cellsPerRow large) (hne : text ≠ []) :
    exec (.writeString col row text large) s =
      .next ((s.drawText col row (text.take (cellsPerRow large - col).toNat) large).finish
        (.writeString col row text large) (some .zero)) := by
  obtain ⟨hfit, htake⟩ := fitLength_take large hcol hne
  change execWriteString col row text large s = _
  rw [execWriteString, if_pos active, if_neg (by simp [(badCell_eq_false_iff col row).mpr cell]), if_neg hfit, htake]

/-- R242: in the large font the text is its characters from the first cell on. -/
theorem State.drawText_large (s : State) (col row : Int) (text : List Byte) :
    s.drawText col row text true = drawLarge row text col s := rfl

/-- Settles O43: past the checks, the large characters that fit are drawn in range, then the request answers 0; at least one
is drawn, so the cursor ends behind its last strip. -/
theorem largeTextResult : Obligations.LargeTextResult := by
  intro col row text s active hc0 hc8 hr0 hr5 hne hcodes shown
  have hroom : col + shown.length ≤ 8 := by
    have : shown.length ≤ (8 - col).toNat := List.length_take_le ..
    omega
  have hshown : 0 < shown.length := by
    have := List.length_pos_iff.mpr hne
    simp only [shown, List.length_take]
    omega
  obtain ⟨t, ht, hinside, hglyphs, hothers, hcursor⟩ := drawLarge_go row hr0 hr5 shown col s hcodes hc0 hroom
  obtain ⟨hemitted, hsession, htables, hinputs, hreturned⟩ := hinside.ret (some .zero)
  refine ⟨t.ret (some .zero), ?_, hglyphs, hothers, hcursor hshown, hemitted, hsession, htables, hinputs, hreturned⟩
  have hdraw : s.drawText col row (text.take (cellsPerRow true - col).toNat) true = .go t :=
    (s.drawText_large ..).trans ht
  rw [exec_writeString_of_fits true active ⟨hc0, hr0, by omega⟩ hc8 hne, hdraw, Flow.finish_go]

end Sys2Proof.Machine

/-! ## Requests while not Active (60_exceptions R272) -/

namespace Sys2Proof.Machine

/-- R230: FILL tests the session before its first page. -/
theorem exec_fill_of_inactive {s : State} (inactive : s.session ≠ .active) (pattern : Byte) :
    exec (.fill pattern) s = .next (s.onlyAnswered (some .minusOne)) := by
  change execFill pattern s = _
  rw [execFill, if_neg inactive, State.ret_eq_onlyAnswered]

/-- R284: SET_PIXEL tests the session before the pixel. -/
theorem exec_setPixel_of_inactive {s : State} (inactive : s.session ≠ .active) (x y : Int) (color : Byte) :
    exec (.setPixel x y color) s = .next (s.onlyAnswered (some .minusOne)) := by
  change execSetPixel x y color s = _
  rw [execSetPixel, if_neg inactive, State.ret_eq_onlyAnswered]

/-- R284: WRITE_STRING tests the session before the cell and the length. -/
theorem exec_writeString_of_inactive {s : State} (inactive : s.session ≠ .active) (col row : Int) (text : List Byte)
    (large : Bool) : exec (.writeString col row text large) s = .next (s.onlyAnswered (some .minusOne)) := by
  change execWriteString col row text large s = _
  rw [execWriteString, if_neg inactive, State.ret_eq_onlyAnswered]

/-- R156: SHUTDOWN makes its calls from Active only. -/
theorem exec_shutdown_of_inactive {s : State} (inactive : s.session ≠ .active) :
    exec .shutdown s = .next (s.onlyAnswered none) := by
  change execShutdown s = _
  rw [execShutdown, if_neg inactive, State.ret_eq_onlyAnswered]

/-- Settles O33: each request tests the session first; SET_CONTRAST's case is the second half of O14. -/
theorem notActiveFails : Obligations.NotActiveFails := by
  intro s inactive
  exact ⟨exec_fill_of_inactive inactive, exec_setPixel_of_inactive inactive, exec_writeString_of_inactive inactive,
    fun level => (contrastResult level s).2 inactive, exec_shutdown_of_inactive inactive⟩

end Sys2Proof.Machine

/-! ## The fields of a serialized instruction (30_encoding R111, R132) -/

namespace Sys2Proof

/-- A 16-bit field gives its number back. -/
theorem u16Of_ofNat {n : Nat} (h : n < 65536) : u16Of (BitVec.ofNat 8 n) (BitVec.ofNat 8 (n / 256)) = n := by
  simp only [u16Of, BitVec.toNat_ofNat]
  omega

theorem u16Of_lt (b0 b1 : Byte) : u16Of b0 b1 < 65536 := by
  simp only [u16Of]
  omega

/-- The two bytes of a 16-bit field are those it was read from. -/
theorem bytes16_u16Of (b0 b1 : Byte) : bytes16 (u16Of b0 b1) = [b0, b1] := by
  have low : BitVec.ofNat 8 (u16Of b0 b1) = b0 :=
    BitVec.eq_of_toNat_eq (by simp only [u16Of, BitVec.toNat_ofNat]; omega)
  have high : BitVec.ofNat 8 (u16Of b0 b1 / 256) = b1 :=
    BitVec.eq_of_toNat_eq (by simp only [u16Of, BitVec.toNat_ofNat]; omega)
  rw [bytes16, low, high]

theorem fitsS16_iff (v : Int) : fitsS16 v = true ↔ -32768 ≤ v ∧ v < 32768 := by
  simp only [fitsS16, Bool.and_eq_true, decide_eq_true_eq]

theorem fitsS8_iff (v : Int) : fitsS8 v = true ↔ -128 ≤ v ∧ v < 128 := by
  simp only [fitsS8, Bool.and_eq_true, decide_eq_true_eq]

/-- A signed 16-bit field is the number of its two bytes, less 65536 from 32768 on (R132). -/
theorem s16Of_eq (b0 b1 : Byte) :
    s16Of b0 b1 = u16Of b0 b1 ∧ u16Of b0 b1 < 32768 ∨
      s16Of b0 b1 = (u16Of b0 b1 : Int) - 65536 ∧ 32768 ≤ u16Of b0 b1 := by
  unfold s16Of
  split <;> omega

/-- A signed 8-bit field is the number of its byte, less 256 from 128 on (R132). -/
theorem s8Of_eq (b : Byte) :
    s8Of b = b.toNat ∧ b.toNat < 128 ∨ s8Of b = (b.toNat : Int) - 256 ∧ 128 ≤ b.toNat := by
  unfold s8Of
  split <;> omega

/-- Two's complement in two bytes gives back every value of the field. -/
theorem s16Of_ofNat {v : Int} (h : fitsS16 v = true) :
    s16Of (BitVec.ofNat 8 (v % 65536).toNat) (BitVec.ofNat 8 ((v % 65536).toNat / 256)) = v := by
  have hv := (fitsS16_iff v).mp h
  have hu := u16Of_ofNat (n := (v % 65536).toNat) (by omega)
  have hs := s16Of_eq (BitVec.ofNat 8 (v % 65536).toNat) (BitVec.ofNat 8 ((v % 65536).toNat / 256))
  rw [hu] at hs
  omega

theorem fitsS16_s16Of (b0 b1 : Byte) : fitsS16 (s16Of b0 b1) = true := by
  rw [fitsS16_iff]
  have := u16Of_lt b0 b1
  rcases s16Of_eq b0 b1 with ⟨h1, h2⟩ | ⟨h1, h2⟩ <;> omega

theorem bytesS16_s16Of (b0 b1 : Byte) : bytesS16 (s16Of b0 b1) = [b0, b1] := by
  have hlt := u16Of_lt b0 b1
  have hmod : (s16Of b0 b1 % 65536).toNat = u16Of b0 b1 := by
    rcases s16Of_eq b0 b1 with ⟨h1, h2⟩ | ⟨h1, h2⟩ <;> omega
  rw [bytesS16, hmod, bytes16_u16Of]

/-- Two's complement in one byte gives back every value of the field. -/
theorem s8Of_byteS8 {v : Int} (h : fitsS8 v = true) : s8Of (byteS8 v) = v := by
  have hv := (fitsS8_iff v).mp h
  have hb : (byteS8 v).toNat = (v % 256).toNat := by simp only [byteS8, BitVec.toNat_ofNat]; omega
  rcases s8Of_eq (byteS8 v) with ⟨h1, h2⟩ | ⟨h1, h2⟩ <;> omega

theorem fitsS8_s8Of (b : Byte) : fitsS8 (s8Of b) = true := by
  rw [fitsS8_iff]
  rcases s8Of_eq b with ⟨h1, h2⟩ | ⟨h1, h2⟩ <;> omega

theorem byteS8_s8Of (b : Byte) : byteS8 (s8Of b) = b := by
  refine BitVec.eq_of_toNat_eq ?_
  simp only [byteS8, BitVec.toNat_ofNat]
  rcases s8Of_eq b with ⟨h1, h2⟩ | ⟨h1, h2⟩ <;> omega

/-- The three flags of an INIT, and no reserved bit (R112). -/
theorem initFlags_bits (flip invert strobed : Bool) :
    (initFlags flip invert strobed).toNat < 8 ∧ (initFlags flip invert strobed).getLsbD 0 = flip ∧
      (initFlags flip invert strobed).getLsbD 1 = invert ∧ (initFlags flip invert strobed).getLsbD 2 = strobed := by
  revert flip invert strobed
  decide

/-- A flags byte without a reserved bit is that of its three flags. -/
theorem initFlags_getLsbD {flags : Byte} (h : flags.toNat < 8) :
    initFlags (flags.getLsbD 0) (flags.getLsbD 1) (flags.getLsbD 2) = flags := by
  obtain ⟨n, rfl⟩ : ∃ n : Fin 8, flags = BitVec.ofNat 8 n := ⟨⟨flags.toNat, h⟩, by simp⟩
  revert n
  decide

/-- The font flag of a WRITE_STRING, and no reserved bit (R116). -/
theorem fontFlag_bits (large : Bool) :
    (BitVec.ofNat 8 large.toNat).toNat < 2 ∧ (BitVec.ofNat 8 large.toNat).getLsbD 0 = large := by
  revert large
  decide

theorem fontFlag_getLsbD {flags : Byte} (h : flags.toNat < 2) : BitVec.ofNat 8 (flags.getLsbD 0).toNat = flags := by
  obtain ⟨n, rfl⟩ : ∃ n : Fin 2, flags = BitVec.ofNat 8 n := ⟨⟨flags.toNat, h⟩, by simp⟩
  revert n
  decide

/-! ## Decoding an encoding -/

theorem decodeInit_encode {channel address dcLine resetLine : Nat} (flip invert strobed : Bool) (rest : List Byte)
    (hc : channel < 256) (ha : address < 256) (hd : dcLine < 65536) (hr : resetLine < 65536) :
    decodeInit (initFlags flip invert strobed :: BitVec.ofNat 8 channel :: BitVec.ofNat 8 address ::
      (bytes16 dcLine ++ bytes16 resetLine ++ rest)) =
      .instr (.init channel address flip invert strobed dcLine resetLine) rest := by
  obtain ⟨hlt, h0, h1, h2⟩ := initFlags_bits flip invert strobed
  simp only [bytes16, List.cons_append, List.nil_append, decodeInit]
  rw [if_neg (by omega), h0, h1, h2, u16Of_ofNat hd, u16Of_ofNat hr, BitVec.toNat_ofNat, BitVec.toNat_ofNat,
    Nat.mod_eq_of_lt hc, Nat.mod_eq_of_lt ha]

theorem decodeSetPixel_encode {x y : Int} (color : Byte) (rest : List Byte) (hx : fitsS16 x = true)
    (hy : fitsS16 y = true) :
    decodeSetPixel (bytesS16 x ++ bytesS16 y ++ color :: rest) = .instr (.setPixel x y color) rest := by
  simp only [bytesS16, bytes16, List.cons_append, List.nil_append, decodeSetPixel]
  rw [s16Of_ofNat hx, s16Of_ofNat hy]

theorem decodeWriteString_encode {col row : Int} {text : List Byte} (large : Bool) (rest : List Byte)
    (hc : fitsS8 col = true) (hr : fitsS8 row = true) (ht : text.length < 256) :
    decodeWriteString (BitVec.ofNat 8 large.toNat :: byteS8 col :: byteS8 row :: BitVec.ofNat 8 text.length ::
      (text ++ rest)) = .instr (.writeString col row text large) rest := by
  obtain ⟨hlt, h0⟩ := fontFlag_bits large
  have hn : (BitVec.ofNat 8 text.length).toNat = text.length := by rw [BitVec.toNat_ofNat, Nat.mod_eq_of_lt ht]
  rw [decodeWriteString, if_neg (by omega), hn, if_neg (by simp), h0, s8Of_byteS8 hc, s8Of_byteS8 hr, List.take_left,
    List.drop_left]

theorem decodeSetCursor_encode {column page : Int} (rest : List Byte) (hc : fitsS16 column = true)
    (hp : fitsS16 page = true) :
    decodeSetCursor (bytesS16 column ++ bytesS16 page ++ rest) = .instr (.setCursor column page) rest := by
  simp only [bytesS16, bytes16, List.cons_append, List.nil_append, decodeSetCursor]
  rw [s16Of_ofNat hc, s16Of_ofNat hp]

/-- The length byte of a transfer holds its length less 1 (log 8). -/
theorem lengthByte_toNat {bytes : List Byte} (h1 : 1 ≤ bytes.length) (h2 : bytes.length ≤ 256) :
    (BitVec.ofNat 8 (bytes.length - 1)).toNat + 1 = bytes.length := by
  rw [BitVec.toNat_ofNat]
  omega

theorem isCommandLength_iff (n : Nat) : isCommandLength n = true ↔ n = 1 ∨ n = 2 ∨ n = 21 := by
  simp only [isCommandLength, Bool.or_eq_true, beq_iff_eq, or_assoc]

theorem decodeWriteCommand_encode {bytes : List Byte} (rest : List Byte) (h : isCommandLength bytes.length = true) :
    decodeWriteCommand (BitVec.ofNat 8 (bytes.length - 1) :: (bytes ++ rest)) = .instr (.writeCommand bytes) rest := by
  have hl := (isCommandLength_iff _).mp h
  rw [decodeWriteCommand, lengthByte_toNat (by omega) (by omega), if_pos h, if_neg (by simp), List.take_left,
    List.drop_left]

theorem decodeWriteData_encode {bytes : List Byte} (rest : List Byte) (h1 : 1 ≤ bytes.length)
    (h2 : bytes.length ≤ 256) :
    decodeWriteData (BitVec.ofNat 8 (bytes.length - 1) :: (bytes ++ rest)) = .instr (.writeData bytes) rest := by
  rw [decodeWriteData, lengthByte_toNat h1 h2, if_neg (by simp), List.take_left, List.drop_left]

/-- The command of one byte that a first byte starts is all of the instruction. -/
theorem decodeControllerOp_of_oneByte {op : Byte} {i : Instr} (h : oneByteCommand op = some i) (rest : List Byte) :
    decodeControllerOp op rest = .instr i rest := by
  rw [decodeControllerOp, h]

theorem oneByteCommand_pageSelectByte {page : Int} (h0 : 0 ≤ page) (h8 : page < 8) :
    oneByteCommand (pageSelectByte page) = some (.pageSelect page) := by
  interval_cases page <;> rfl

theorem oneByteCommand_columnLowByte (nibble : BitVec 4) :
    oneByteCommand (columnLowByte nibble) = some (.columnLow nibble) := by
  revert nibble
  decide

theorem oneByteCommand_columnHighByte (nibble : BitVec 4) :
    oneByteCommand (columnHighByte nibble) = some (.columnHigh nibble) := by
  revert nibble
  decide

theorem oneByteCommand_startLineByte (line : BitVec 6) :
    oneByteCommand (startLineByte line) = some (.setStartLine line) := by
  revert line
  decide

/-- Settles O1: instruction by instruction, the fields read back what the encoder wrote. -/
theorem decodeOfEncode : Obligations.DecodeOfEncode := by
  intro i rest h
  cases i with
  | init channel address flip invert strobed dcLine resetLine =>
    simp only [Instr.wellFormed, Bool.and_eq_true, decide_eq_true_eq] at h
    obtain ⟨⟨⟨hc, ha⟩, hd⟩, hr⟩ := h
    exact decodeInit_encode flip invert strobed rest hc ha hd hr
  | setPixel x y color =>
    simp only [Instr.wellFormed, Bool.and_eq_true] at h
    exact decodeSetPixel_encode color rest h.1 h.2
  | writeString col row text large =>
    simp only [Instr.wellFormed, Bool.and_eq_true, decide_eq_true_eq] at h
    obtain ⟨⟨hc, hr⟩, ht⟩ := h
    exact decodeWriteString_encode large rest hc hr ht
  | setCursor column page =>
    simp only [Instr.wellFormed, Bool.and_eq_true] at h
    exact decodeSetCursor_encode rest h.1 h.2
  | writeCommand bytes => exact decodeWriteCommand_encode rest h
  | writeData bytes =>
    simp only [Instr.wellFormed, Bool.and_eq_true, decide_eq_true_eq] at h
    exact decodeWriteData_encode rest h.1 h.2
  | pageSelect page =>
    simp only [Instr.wellFormed, Bool.and_eq_true, decide_eq_true_eq] at h
    exact decodeControllerOp_of_oneByte (oneByteCommand_pageSelectByte h.1 h.2) rest
  | columnLow nibble => exact decodeControllerOp_of_oneByte (oneByteCommand_columnLowByte nibble) rest
  | columnHigh nibble => exact decodeControllerOp_of_oneByte (oneByteCommand_columnHighByte nibble) rest
  | setStartLine line => exact decodeControllerOp_of_oneByte (oneByteCommand_startLineByte line) rest
  | _ => rfl

end Sys2Proof

/-! ## Encoding what was decoded -/

namespace Sys2Proof

/-- What O2 says of bytes that decode on a port to an instruction and a rest. -/
structure Encodes (p : Port) (bytes : List Byte) (i : Instr) (rest : List Byte) : Prop where
  wellFormed : i.wellFormed = true
  port : i.port = p
  bytes_eq : encode i ++ rest = bytes

theorem encodes_decodeInit {bytes rest : List Byte} {i : Instr} (h : decodeInit bytes = .instr i rest) :
    Encodes .host (0x01 :: bytes) i rest := by
  unfold decodeInit at h
  split at h
  · next flags channel address d0 d1 r0 r1 tail =>
    split at h
    · cases h
    · next reserved =>
      cases h
      refine ⟨?_, rfl, ?_⟩
      · simp only [Instr.wellFormed, Bool.and_eq_true, decide_eq_true_eq]
        exact ⟨⟨⟨channel.isLt, address.isLt⟩, u16Of_lt d0 d1⟩, u16Of_lt r0 r1⟩
      · rw [encode, initFlags_getLsbD (by omega), bytes16_u16Of, bytes16_u16Of, BitVec.ofNat_toNat, BitVec.ofNat_toNat,
          BitVec.setWidth_eq, BitVec.setWidth_eq]
        rfl
  · cases h

theorem encodes_decodeFill {bytes rest : List Byte} {i : Instr} (h : decodeFill bytes = .instr i rest) :
    Encodes .host (0x03 :: bytes) i rest := by
  unfold decodeFill at h
  split at h <;> cases h
  exact ⟨rfl, rfl, rfl⟩

theorem encodes_decodeSetPixel {bytes rest : List Byte} {i : Instr} (h : decodeSetPixel bytes = .instr i rest) :
    Encodes .host (0x04 :: bytes) i rest := by
  unfold decodeSetPixel at h
  split at h <;> cases h
  refine ⟨?_, rfl, ?_⟩
  · rw [Instr.wellFormed, fitsS16_s16Of, fitsS16_s16Of]
    rfl
  · rw [encode, bytesS16_s16Of, bytesS16_s16Of]
    rfl

theorem encodes_decodeWriteString {bytes rest : List Byte} {i : Instr} (h : decodeWriteString bytes = .instr i rest) :
    Encodes .host (0x05 :: bytes) i rest := by
  unfold decodeWriteString at h
  split at h
  · next flags col row n tail =>
    split at h
    · cases h
    · next reserved =>
      split at h
      · cases h
      · next short =>
        cases h
        have hlen : (tail.take n.toNat).length = n.toNat := List.length_take_of_le (by omega)
        refine ⟨?_, rfl, ?_⟩
        · rw [Instr.wellFormed, fitsS8_s8Of, fitsS8_s8Of, hlen]
          exact decide_eq_true n.isLt
        · rw [encode, hlen, fontFlag_getLsbD (by omega), byteS8_s8Of, byteS8_s8Of, BitVec.ofNat_toNat, BitVec.setWidth_eq,
            List.append_assoc, List.take_append_drop]
          rfl
  · cases h

theorem encodes_decodeSetContrast {bytes rest : List Byte} {i : Instr} (h : decodeSetContrast bytes = .instr i rest) :
    Encodes .host (0x06 :: bytes) i rest := by
  unfold decodeSetContrast at h
  split at h <;> cases h
  exact ⟨rfl, rfl, rfl⟩

theorem encodes_decodeHostOp {op : Byte} {bytes rest : List Byte} {i : Instr}
    (h : decodeHostOp op bytes = .instr i rest) : Encodes .host (op :: bytes) i rest := by
  unfold decodeHostOp at h
  split_ifs at h with h1 h2 h3 h4 h5 h6
  · exact h1 ▸ encodes_decodeInit h
  · cases h; exact ⟨rfl, rfl, h2 ▸ rfl⟩
  · exact h3 ▸ encodes_decodeFill h
  · exact h4 ▸ encodes_decodeSetPixel h
  · exact h5 ▸ encodes_decodeWriteString h
  · exact h6 ▸ encodes_decodeSetContrast h

theorem encodes_decodeSetCursor {bytes rest : List Byte} {i : Instr} (h : decodeSetCursor bytes = .instr i rest) :
    Encodes .sequencer (0x80 :: bytes) i rest := by
  unfold decodeSetCursor at h
  split at h <;> cases h
  refine ⟨?_, rfl, ?_⟩
  · rw [Instr.wellFormed, fitsS16_s16Of, fitsS16_s16Of]
    rfl
  · rw [encode, bytesS16_s16Of, bytesS16_s16Of]
    rfl

/-- A length byte that is not longer than what follows it is the length byte of the bytes it takes (log 8). -/
theorem lengthByte_take {n : Byte} {tail : List Byte} (h : ¬ tail.length < n.toNat + 1) :
    (tail.take (n.toNat + 1)).length = n.toNat + 1 ∧
      BitVec.ofNat 8 ((tail.take (n.toNat + 1)).length - 1) = n := by
  have hlen : (tail.take (n.toNat + 1)).length = n.toNat + 1 := List.length_take_of_le (by omega)
  refine ⟨hlen, ?_⟩
  rw [hlen, Nat.add_sub_cancel, BitVec.ofNat_toNat, BitVec.setWidth_eq]

theorem encodes_decodeWriteCommand {bytes rest : List Byte} {i : Instr} (h : decodeWriteCommand bytes = .instr i rest) :
    Encodes .sequencer (0x81 :: bytes) i rest := by
  unfold decodeWriteCommand at h
  split at h
  · next n tail =>
    split_ifs at h with hcommand hshort
    cases h
    obtain ⟨hlen, hbyte⟩ := lengthByte_take hshort
    refine ⟨?_, rfl, ?_⟩
    · rw [Instr.wellFormed, hlen, hcommand]
    · rw [encode, hbyte, List.append_assoc, List.take_append_drop]
      rfl
  · cases h

theorem encodes_decodeWriteData {bytes rest : List Byte} {i : Instr} (h : decodeWriteData bytes = .instr i rest) :
    Encodes .sequencer (0x82 :: bytes) i rest := by
  unfold decodeWriteData at h
  split at h
  · next n tail =>
    split_ifs at h with hshort
    cases h
    obtain ⟨hlen, hbyte⟩ := lengthByte_take hshort
    refine ⟨?_, rfl, ?_⟩
    · rw [Instr.wellFormed, hlen, Bool.and_eq_true, decide_eq_true_eq, decide_eq_true_eq]
      omega
    · rw [encode, hbyte, List.append_assoc, List.take_append_drop]
      rfl
  · cases h

theorem encodes_decodeSequencerOp {op : Byte} {bytes rest : List Byte} {i : Instr}
    (h : decodeSequencerOp op bytes = .instr i rest) : Encodes .sequencer (op :: bytes) i rest := by
  unfold decodeSequencerOp at h
  split_ifs at h with h1 h2 h3 h4 h5
  · exact h1 ▸ encodes_decodeSetCursor h
  · exact h2 ▸ encodes_decodeWriteCommand h
  · exact h3 ▸ encodes_decodeWriteData h
  · cases h; exact ⟨rfl, rfl, h4 ▸ rfl⟩
  · cases h; exact ⟨rfl, rfl, h5 ▸ rfl⟩

/-- Two masks that cover the byte split it in two. -/
theorem and_or_and_eq_self {mask others : Byte} (h : mask ||| others = BitVec.allOnes 8) (op : Byte) :
    op &&& mask ||| op &&& others = op := by
  rw [← BitVec.and_or_distrib_left, h, BitVec.and_allOnes]

/-- A byte read as an operand of fewer bits is its low bits. -/
theorem setWidth_setWidth_eq_and (op : Byte) {w : Nat} (hw : w ≤ 8) :
    (op.setWidth w).setWidth 8 = op &&& BitVec.ofNat 8 (2 ^ w - 1) := by
  have hpow : 2 ^ w ≤ 2 ^ 8 := Nat.pow_le_pow_right (by omega) hw
  refine BitVec.eq_of_toNat_eq ?_
  rw [BitVec.toNat_setWidth, BitVec.toNat_setWidth, BitVec.toNat_and, BitVec.toNat_ofNat,
    Nat.mod_eq_of_lt (a := 2 ^ w - 1) (by omega), Nat.and_two_pow_sub_one_eq_mod]
  exact Nat.mod_eq_of_lt ((Nat.mod_le _ _).trans_lt op.isLt)

theorem columnLowByte_setWidth {op : Byte} (h : op &&& 0xF0 = 0x00) : columnLowByte (op.setWidth 4) = op := by
  rw [columnLowByte, setWidth_setWidth_eq_and op (by decide), ← h, and_or_and_eq_self (by decide)]

theorem columnHighByte_setWidth {op : Byte} (h : op &&& 0xF0 = 0x10) : columnHighByte (op.setWidth 4) = op := by
  rw [columnHighByte, setWidth_setWidth_eq_and op (by decide), ← h, and_or_and_eq_self (by decide)]

theorem startLineByte_setWidth {op : Byte} (h : op &&& 0xC0 = 0x40) : startLineByte (op.setWidth 6) = op := by
  rw [startLineByte, setWidth_setWidth_eq_and op (by decide), ← h, and_or_and_eq_self (by decide)]

theorem pageSelectByte_toNat (page : Byte) : pageSelectByte page.toNat = 0xB0 ||| page := by
  have hmod : ((page.toNat : Int) % 256).toNat = page.toNat := by omega
  rw [pageSelectByte, hmod, BitVec.ofNat_toNat, BitVec.setWidth_eq]

theorem pageSelectByte_and {op : Byte} (h : op &&& 0xF8 = 0xB0) : pageSelectByte (op &&& 0x07).toNat = op := by
  rw [pageSelectByte_toNat, ← h, and_or_and_eq_self (by decide)]

theorem encodes_oneByteCommand {op : Byte} {i : Instr} (h : oneByteCommand op = some i) (rest : List Byte) :
    Encodes .controller (op :: rest) i rest := by
  rw [oneByteCommand] at h
  rcases ite_eq_iff.mp h with ⟨low, hi⟩ | ⟨-, h⟩
  · cases hi; exact ⟨rfl, rfl, by rw [encode, columnLowByte_setWidth low]; rfl⟩
  rcases ite_eq_iff.mp h with ⟨high, hi⟩ | ⟨-, h⟩
  · cases hi; exact ⟨rfl, rfl, by rw [encode, columnHighByte_setWidth high]; rfl⟩
  rcases ite_eq_iff.mp h with ⟨line, hi⟩ | ⟨-, h⟩
  · cases hi; exact ⟨rfl, rfl, by rw [encode, startLineByte_setWidth line]; rfl⟩
  rcases ite_eq_iff.mp h with ⟨page, hi⟩ | ⟨-, h⟩
  · cases hi
    have hlt : (op &&& 0x07).toNat ≤ 7 := BitVec.toNat_and op 0x07 ▸ Nat.and_le_right
    refine ⟨?_, rfl, by rw [encode, pageSelectByte_and page]; rfl⟩
    rw [Instr.wellFormed, Bool.and_eq_true, decide_eq_true_eq, decide_eq_true_eq]
    omega
  iterate 9
    rcases ite_eq_iff.mp h with ⟨rfl, hi⟩ | ⟨-, h⟩
    · cases hi; exact ⟨rfl, rfl, rfl⟩
  cases h

theorem encodes_twoByteCommand {op operand : Byte} {i : Instr} (h : twoByteCommand op operand = some i)
    (rest : List Byte) : Encodes .controller (op :: operand :: rest) i rest := by
  unfold twoByteCommand at h
  split_ifs at h <;> (cases h; subst op; exact ⟨rfl, rfl, rfl⟩)

theorem encodes_decodeTwoByte {op : Byte} {bytes rest : List Byte} {i : Instr}
    (h : decodeTwoByte op bytes = .instr i rest) : Encodes .controller (op :: bytes) i rest := by
  cases bytes with
  | nil => rcases ite_eq_iff.mp h with ⟨-, h⟩ | ⟨-, h⟩ <;> cases h
  | cons operand tail =>
    rw [decodeTwoByte] at h
    cases two : twoByteCommand op operand with
    | none => simp only [two, reduceCtorEq] at h
    | some j =>
      simp only [two, Decoded.instr.injEq] at h
      obtain ⟨rfl, rfl⟩ := h
      exact encodes_twoByteCommand two tail

theorem encodes_decodeControllerOp {op : Byte} {bytes rest : List Byte} {i : Instr}
    (h : decodeControllerOp op bytes = .instr i rest) : Encodes .controller (op :: bytes) i rest := by
  rw [decodeControllerOp] at h
  cases one : oneByteCommand op with
  | none => simp only [one] at h; exact encodes_decodeTwoByte h
  | some j =>
    simp only [one, Decoded.instr.injEq] at h
    obtain ⟨rfl, rfl⟩ := h
    exact encodes_oneByteCommand one bytes

/-- Settles O2: port by port, each decoder's answer encodes back to the bytes it read. -/
theorem encodeOfDecode : Obligations.EncodeOfDecode := by
  intro p bytes i rest h
  have key : Encodes p bytes i rest := by
    cases bytes with
    | nil => simp only [decode, reduceCtorEq] at h
    | cons op tail =>
      cases p with
      | host => exact encodes_decodeHostOp h
      | sequencer => exact encodes_decodeSequencerOp h
      | controller => exact encodes_decodeControllerOp h
  exact ⟨key.wellFormed, key.port, key.bytes_eq⟩

end Sys2Proof

/-! ## What is rejected on the host port (30_encoding R129, R130) -/

namespace Sys2Proof

/-- What a decoder's answer is when it is no instruction. -/
def Decoded.Rejects (d : Decoded) : Prop := ∃ r, d = .reject r

@[simp] theorem Decoded.rejects_reject (r : Reject) : (Decoded.reject r).Rejects := ⟨r, rfl⟩

@[simp] theorem Decoded.not_rejects_instr (i : Instr) (rest : List Byte) : ¬ (Decoded.instr i rest).Rejects := by
  rintro ⟨r, h⟩
  cases h

@[simp] theorem Decoded.rejects_ite_reject {c : Prop} [Decidable c] {r : Reject} {d : Decoded} :
    (if c then .reject r else d).Rejects ↔ c ∨ d.Rejects := by
  split <;> simp [*]

theorem decodeInit_rejects (bytes : List Byte) :
    (decodeInit bytes).Rejects ↔ bytes.length < 7 ∨ ∃ flags t, bytes = flags :: t ∧ flags.toNat / 8 ≠ 0 := by
  match bytes with
  | flags :: channel :: address :: d0 :: d1 :: r0 :: r1 :: rest =>
    simp [decodeInit]
  | [] | [_] | [_, _] | [_, _, _] | [_, _, _, _] | [_, _, _, _, _] | [_, _, _, _, _, _] =>
    exact iff_of_true (Decoded.rejects_reject _) (.inl (by simp))

theorem decodeFill_rejects (bytes : List Byte) : (decodeFill bytes).Rejects ↔ bytes.length < 1 := by
  match bytes with
  | pattern :: rest => simp [decodeFill]
  | [] => exact iff_of_true (Decoded.rejects_reject _) (by simp)

theorem decodeSetPixel_rejects (bytes : List Byte) : (decodeSetPixel bytes).Rejects ↔ bytes.length < 5 := by
  match bytes with
  | x0 :: x1 :: y0 :: y1 :: color :: rest => simp [decodeSetPixel]
  | [] | [_] | [_, _] | [_, _, _] | [_, _, _, _] => exact iff_of_true (Decoded.rejects_reject _) (by simp)

theorem decodeWriteString_rejects (bytes : List Byte) :
    (decodeWriteString bytes).Rejects ↔ bytes.length < 4 ∨ (∃ flags t, bytes = flags :: t ∧ flags.toNat / 2 ≠ 0) ∨
      ∃ flags col row n t, bytes = flags :: col :: row :: n :: t ∧ t.length < n.toNat := by
  match bytes with
  | flags :: col :: row :: n :: rest =>
    have long : ¬ (flags :: col :: row :: n :: rest).length < 4 := by simp
    have reserved : 2 ≤ flags.toNat ↔ flags.toNat / 2 ≠ 0 := by omega
    rw [decodeWriteString, Decoded.rejects_ite_reject, Decoded.rejects_ite_reject, reserved, or_iff_right long]
    simp
  | [] | [_] | [_, _] | [_, _, _] => exact iff_of_true (Decoded.rejects_reject _) (.inl (by simp))

theorem decodeSetContrast_rejects (bytes : List Byte) : (decodeSetContrast bytes).Rejects ↔ bytes.length < 1 := by
  match bytes with
  | level :: rest => simp [decodeSetContrast]
  | [] => exact iff_of_true (Decoded.rejects_reject _) (by simp)

/-- The host port rejects an unassigned opcode, and an assigned one where its request's decoder does. -/
theorem decodeHostOp_rejects (op : Byte) (rest : List Byte) :
    (decodeHostOp op rest).Rejects ↔
      (op.toNat = 0 ∨ 7 ≤ op.toNat) ∨ (op = 0x01 ∧ (decodeInit rest).Rejects) ∨
      (op = 0x03 ∧ (decodeFill rest).Rejects) ∨ (op = 0x04 ∧ (decodeSetPixel rest).Rejects) ∨
      (op = 0x05 ∧ (decodeWriteString rest).Rejects) ∨ (op = 0x06 ∧ (decodeSetContrast rest).Rejects) := by
  by_cases h1 : op = 0x01
  · subst op; simp [decodeHostOp]
  by_cases h2 : op = 0x02
  · subst op; simp [decodeHostOp]
  by_cases h3 : op = 0x03
  · subst op; simp [decodeHostOp]
  by_cases h4 : op = 0x04
  · subst op; simp [decodeHostOp]
  by_cases h5 : op = 0x05
  · subst op; simp [decodeHostOp]
  by_cases h6 : op = 0x06
  · subst op; simp [decodeHostOp]
  rw [decodeHostOp, if_neg h1, if_neg h2, if_neg h3, if_neg h4, if_neg h5, if_neg h6]
  exact iff_of_true (Decoded.rejects_reject _) (.inl (by bv_omega))

/-- Settles O4: opcode by opcode, the rejections of the host port are those of its requests' decoders. -/
theorem hostRejectsExactlyIllegal : Obligations.HostRejectsExactlyIllegal := by
  intro op rest
  have key := decodeHostOp_rejects op rest
  rw [decodeInit_rejects, decodeFill_rejects, decodeSetPixel_rejects, decodeWriteString_rejects,
    decodeSetContrast_rejects] at key
  exact key

/-! ## What is rejected on the other ports (log 7, log 8) -/

theorem decodeSetCursor_rejects (bytes : List Byte) : (decodeSetCursor bytes).Rejects ↔ bytes.length < 4 := by
  match bytes with
  | c0 :: c1 :: p0 :: p1 :: rest => simp [decodeSetCursor]
  | [] | [_] | [_, _] | [_, _, _] => exact iff_of_true (Decoded.rejects_reject _) (by simp)

theorem decodeWriteCommand_rejects (bytes : List Byte) :
    (decodeWriteCommand bytes).Rejects ↔ bytes = [] ∨ ∃ n t, bytes = n :: t ∧
      (t.length < n.toNat + 1 ∨ (n.toNat + 1 ≠ 1 ∧ n.toNat + 1 ≠ 2 ∧ n.toNat + 1 ≠ 21)) := by
  match bytes with
  | [] => exact iff_of_true (Decoded.rejects_reject _) (.inl rfl)
  | n :: rest =>
    have key : (decodeWriteCommand (n :: rest)).Rejects ↔
        rest.length < n.toNat + 1 ∨ ¬ isCommandLength (n.toNat + 1) = true := by
      by_cases h : isCommandLength (n.toNat + 1) = true <;> simp [decodeWriteCommand, h]
    rw [key, isCommandLength_iff]
    simp

theorem decodeWriteData_rejects (bytes : List Byte) :
    (decodeWriteData bytes).Rejects ↔ bytes = [] ∨ ∃ n t, bytes = n :: t ∧ t.length < n.toNat + 1 := by
  match bytes with
  | [] => exact iff_of_true (Decoded.rejects_reject _) (.inl rfl)
  | n :: rest =>
    simp [decodeWriteData]

/-- The sequencer's port rejects a code of no micro-operation, and one with operands where their decoder does. -/
theorem decodeSequencerOp_rejects (op : Byte) (rest : List Byte) :
    (decodeSequencerOp op rest).Rejects ↔
      (op.toNat < 0x80 ∨ 0x84 < op.toNat) ∨ (op = 0x80 ∧ (decodeSetCursor rest).Rejects) ∨
      (op = 0x81 ∧ (decodeWriteCommand rest).Rejects) ∨ (op = 0x82 ∧ (decodeWriteData rest).Rejects) := by
  by_cases h0 : op = 0x80
  · subst op; simp [decodeSequencerOp]
  by_cases h1 : op = 0x81
  · subst op; simp [decodeSequencerOp]
  by_cases h2 : op = 0x82
  · subst op; simp [decodeSequencerOp]
  by_cases h3 : op = 0x83
  · subst op; simp [decodeSequencerOp]
  by_cases h4 : op = 0x84
  · subst op; simp [decodeSequencerOp]
  rw [decodeSequencerOp, if_neg h0, if_neg h1, if_neg h2, if_neg h3, if_neg h4]
  exact iff_of_true (Decoded.rejects_reject _) (.inl (by bv_omega))

/-- The first bytes of the one-byte commands (R119 to R121, R123, R124). -/
theorem oneByteCommand_eq_none_iff (op : Byte) :
    oneByteCommand op = none ↔
      ¬ (op.toNat < 0x20 ∨ (0x40 ≤ op.toNat ∧ op.toNat < 0x80) ∨ (0xB0 ≤ op.toNat ∧ op.toNat < 0xB8) ∨
        op ∈ ([0xA0, 0xA1, 0xA4, 0xA6, 0xA7, 0xAE, 0xAF, 0xC0, 0xC8] : List Byte)) := by
  revert op
  decide +kernel

/-- The first bytes of the two-byte commands (R122, R124), whatever the operand. -/
theorem twoByteCommand_eq_none_iff (op operand : Byte) :
    twoByteCommand op operand = none ↔ op ∉ ([0x20, 0x81, 0x8D, 0xA8, 0xD3, 0xD5, 0xDA] : List Byte) := by
  simp [twoByteCommand, ite_eq_iff]

/-- The controller's port rejects a byte that starts no command, and a two-byte command cut after its first byte. -/
theorem decodeControllerOp_rejects (op : Byte) (rest : List Byte) :
    (decodeControllerOp op rest).Rejects ↔
      oneByteCommand op = none ∧ (op ∈ ([0x20, 0x81, 0x8D, 0xA8, 0xD3, 0xD5, 0xDA] : List Byte) → rest = []) := by
  rw [decodeControllerOp]
  cases oneByteCommand op with
  | some i => simp [Decoded.not_rejects_instr]
  | none =>
    cases rest with
    | nil =>
      rw [decodeTwoByte]
      cases (twoByteCommand op 0x00).isSome <;> simp
    | cons operand tail =>
      have hnone := twoByteCommand_eq_none_iff op operand
      rw [decodeTwoByte]
      cases htwo : twoByteCommand op operand with
      | none => simpa using hnone.mp htwo
      | some i => simpa [htwo] using hnone

end Sys2Proof

/-! ## The opcode table (opcode_table.json) -/

namespace Sys2Proof

/-- The rows of the opcode table that name the instruction, whatever its operands. -/
def opcodeRows : List OpcodeRow :=
  [⟨"INIT", .host, 0xFF, 0x01⟩, ⟨"SHUTDOWN", .host, 0xFF, 0x02⟩, ⟨"FILL", .host, 0xFF, 0x03⟩,
    ⟨"SET_PIXEL", .host, 0xFF, 0x04⟩, ⟨"WRITE_STRING", .host, 0xFF, 0x05⟩, ⟨"SET_CONTRAST", .host, 0xFF, 0x06⟩,
    ⟨"SET_CURSOR", .sequencer, 0xFF, 0x80⟩, ⟨"WRITE_COMMAND", .sequencer, 0xFF, 0x81⟩,
    ⟨"WRITE_DATA", .sequencer, 0xFF, 0x82⟩, ⟨"XFORM8", .sequencer, 0xFF, 0x83⟩, ⟨"XFORM16", .sequencer, 0xFF, 0x84⟩,
    ⟨"DISPLAY_OFF", .controller, 0xFF, 0xAE⟩, ⟨"SET_CONTRAST_CMD", .controller, 0xFF, 0x81⟩,
    ⟨"PAGE_SELECT", .controller, 0xF8, 0xB0⟩, ⟨"COLUMN_LOW", .controller, 0xF0, 0x00⟩,
    ⟨"COLUMN_HIGH", .controller, 0xF0, 0x10⟩, ⟨"INVERT_DISPLAY", .controller, 0xFF, 0xA7⟩,
    ⟨"REMAP_A0", .controller, 0xFF, 0xA0⟩, ⟨"REMAP_C0", .controller, 0xFF, 0xC0⟩,
    ⟨"SET_MULTIPLEX", .controller, 0xFF, 0xA8⟩, ⟨"SET_DISPLAY_OFFSET", .controller, 0xFF, 0xD3⟩,
    ⟨"SET_START_LINE", .controller, 0xC0, 0x40⟩, ⟨"SEGMENT_REMAP_A1", .controller, 0xFF, 0xA1⟩,
    ⟨"COM_SCAN_REMAPPED", .controller, 0xFF, 0xC8⟩, ⟨"SET_COM_PINS", .controller, 0xFF, 0xDA⟩,
    ⟨"DISPLAY_FOLLOW_RAM", .controller, 0xFF, 0xA4⟩, ⟨"NORMAL_DISPLAY", .controller, 0xFF, 0xA6⟩,
    ⟨"SET_CLOCK_DIV", .controller, 0xFF, 0xD5⟩, ⟨"CHARGE_PUMP", .controller, 0xFF, 0x8D⟩,
    ⟨"DISPLAY_ON", .controller, 0xFF, 0xAF⟩, ⟨"SET_ADDRESSING_MODE", .controller, 0xFF, 0x20⟩]

theorem Instr.row_mem_opcodeRows (i : Instr) : i.row ∈ opcodeRows := by
  cases i <;> simp [Instr.row, opcodeRows]

/-- Two rows of one port differ in a bit that both their masks hold. -/
def OpcodeRow.Apart (r q : OpcodeRow) : Prop := r.port = q.port → r.value &&& q.mask ≠ q.value &&& r.mask

theorem OpcodeRow.Apart.symm {r q : OpcodeRow} (h : r.Apart q) : q.Apart r := fun hp he => h hp.symm he.symm

theorem opcodeRows_pairwise_apart : opcodeRows.Pairwise OpcodeRow.Apart := by
  unfold OpcodeRow.Apart
  decide

/-- Rows that are apart have no first byte in common. -/
theorem OpcodeRow.Apart.port_ne {r q : OpcodeRow} (h : r.Apart q) {b : Byte} (hr : b &&& r.mask = r.value)
    (hq : b &&& q.mask = q.value) : r.port ≠ q.port := by
  intro hp
  apply h hp
  rw [← hr, ← hq, BitVec.and_assoc, BitVec.and_assoc, BitVec.and_comm r.mask]

/-- Settles O5: any two rows of one port are apart, so a byte that matches both finds one row twice. -/
theorem opcodeRowsDisjoint : Obligations.OpcodeRowsDisjoint := by
  intro i j b hp hi hj
  by_contra hne
  have symmetric : Std.Symm OpcodeRow.Apart := ⟨fun _ _ h => h.symm⟩
  have apart : i.row.Apart j.row :=
    opcodeRows_pairwise_apart.forall i.row_mem_opcodeRows j.row_mem_opcodeRows hne
  exact apart.port_ne hi hj hp

/-- Settles O3: eight closed instances of the decoder. -/
theorem decodesSpecWords : Obligations.DecodesSpecWords := by
  unfold Obligations.DecodesSpecWords
  decide

/-- Settles O6: the closed stream of 21 bytes, read command after command. -/
theorem defaultInitSeqCommands : Obligations.DefaultInitSeqCommands := by
  unfold Obligations.DefaultInitSeqCommands
  decide

end Sys2Proof

/-! ## One step on the host's list (10_state R31, 60_exceptions R276, R277, R283) -/

namespace Sys2Proof.Machine

/-- The entry at the index of the next request, given in time, is the one a step takes. -/
theorem State.fetch_of_entry {s : State} {p : Payload} (h : s.program[s.next]? = some ⟨p, false⟩) :
    s.fetch = fetchPayload p := by
  rw [State.fetch, h]
  rfl

theorem fetchPayload_bytes_of_instr {p : Port} {bytes rest : List Byte} {i : Instr}
    (h : decode p bytes = .instr i rest) : fetchPayload (.bytes p bytes) = .run i := by
  rw [fetchPayload, h]

/-- What a step does with an instruction it fetched. -/
theorem step_of_run {s : State} {i : Instr} (hf : s.fault = none) (h : s.fetch = .run i) : step s = exec i s := by
  rw [step, hf, h]

/-- Settles O7: an entry's decoded instruction, and a record, is what the step fetches and runs. -/
theorem stepRunsDecoded : Obligations.StepRunsDecoded := by
  refine ⟨fun s p bytes rest i hf hentry hdecode => ?_, fun s i hf hentry => ?_⟩
  · exact step_of_run hf ((State.fetch_of_entry hentry).trans (fetchPayload_bytes_of_instr hdecode))
  · exact step_of_run hf (State.fetch_of_entry hentry)

/-- Settles O8: no entry at the index is fetched as idle, and after reset the list is empty. -/
theorem stepWaitsForRequest : Obligations.StepWaitsForRequest := by
  have waits (s : State) (hf : s.fault = none) (hnone : s.program[s.next]? = none) : step s = .next s := by
    have hidle : s.fetch = .idle := by rw [State.fetch, hnone]
    rw [step, hf, hidle]
  exact ⟨waits, waits State.reset rfl rfl⟩

/-- Settles O9: a step looks at the fault first, and so does the end of a run. -/
theorem faultedTakesNoRequest : Obligations.FaultedTakesNoRequest := by
  intro s r h
  refine ⟨by rw [step, h], ?_⟩
  rw [State.final, h]
  rfl

/-- Settles O10: the mark on the entry is looked at before its payload. -/
theorem overlapRefused : Obligations.OverlapRefused := by
  intro s p hf hentry
  have hoverlap : s.fetch = .overlapping := by
    rw [State.fetch, hentry]
    rfl
  rw [step, hf, hoverlap]

/-! ### The opcode of rejected bytes -/

theorem decodeHostOp_reject_op {op : Byte} {rest : List Byte} {r : Reject} (h : decodeHostOp op rest = .reject r) :
    r.op = some op := by
  unfold decodeHostOp at h
  split_ifs at h with h1 h2 h3 h4 h5 h6
  · unfold decodeInit at h
    split at h
    · split at h <;> cases h
      exact h1 ▸ rfl
    · cases h; exact h1 ▸ rfl
  · unfold decodeFill at h
    split at h <;> cases h
    exact h3 ▸ rfl
  · unfold decodeSetPixel at h
    split at h <;> cases h
    exact h4 ▸ rfl
  · unfold decodeWriteString at h
    split at h
    · split_ifs at h <;> (cases h; exact h5 ▸ rfl)
    · cases h; exact h5 ▸ rfl
  · unfold decodeSetContrast at h
    split at h <;> cases h
    exact h6 ▸ rfl
  · cases h; rfl

theorem decodeSequencerOp_reject_op {op : Byte} {rest : List Byte} {r : Reject}
    (h : decodeSequencerOp op rest = .reject r) : r.op = some op := by
  unfold decodeSequencerOp at h
  split_ifs at h with h0 h1 h2
  · unfold decodeSetCursor at h
    split at h <;> cases h
    exact h0 ▸ rfl
  · unfold decodeWriteCommand at h
    split at h
    · split_ifs at h <;> (cases h; exact h1 ▸ rfl)
    · cases h; exact h1 ▸ rfl
  · unfold decodeWriteData at h
    split at h
    · split_ifs at h
      cases h; exact h2 ▸ rfl
    · cases h; exact h2 ▸ rfl
  · cases h; rfl

theorem decodeControllerOp_reject_op {op : Byte} {rest : List Byte} {r : Reject}
    (h : decodeControllerOp op rest = .reject r) : r.op = some op := by
  rw [decodeControllerOp] at h
  cases one : oneByteCommand op with
  | some i => simp only [one, reduceCtorEq] at h
  | none =>
    simp only [one] at h
    cases rest with
    | nil => rcases ite_eq_iff.mp h with ⟨-, h⟩ | ⟨-, h⟩ <;> (cases h; rfl)
    | cons operand tail =>
      rw [decodeTwoByte] at h
      cases two : twoByteCommand op operand with
      | some i => simp only [two, reduceCtorEq] at h
      | none => simp only [two] at h; cases h; rfl

/-- The opcode of rejected bytes is their first byte, on every port. -/
theorem decode_reject_op {p : Port} {bytes : List Byte} {r : Reject} (h : decode p bytes = .reject r) :
    r.op = bytes.head? := by
  cases bytes with
  | nil => cases p <;> (cases h; rfl)
  | cons op rest =>
    cases p with
    | host => exact decodeHostOp_reject_op h
    | sequencer => exact decodeSequencerOp_reject_op h
    | controller => exact decodeControllerOp_reject_op h

/-- Settles O11: rejected bytes on the host port are fetched as illegal, with their first byte. -/
theorem illegalRequestRaised : Obligations.IllegalRequestRaised := by
  intro s bytes r hf hentry hreject
  have hillegal : s.fetch = .illegal bytes.head? (.bytes .host bytes) := by
    rw [State.fetch_of_entry hentry, fetchPayload, hreject, ← decode_reject_op hreject]
  rw [step, hf, hillegal]
  rfl

/-- Rejected bytes on one of the other ports are fetched as no instruction there, with their first byte. -/
theorem fetchPayload_unassigned {p : Port} {bytes : List Byte} {r : Reject} (hp : p ≠ .host)
    (h : decode p bytes = .reject r) : fetchPayload (.bytes p bytes) = .unassigned p bytes.head? := by
  rw [fetchPayload, h, ← decode_reject_op h]
  cases p with
  | host => exact absurd rfl hp
  | sequencer => rfl
  | controller => rfl

/-- Settles O60: what the two ports reject is said code by code, and a step refuses it with its first byte. -/
theorem otherPortsRefuse : Obligations.OtherPortsRefuse := by
  refine ⟨fun s p bytes r hp hf hentry hreject => ?_, fun p => ⟨.empty, by cases p <;> rfl⟩, fun op rest => ?_,
    fun op rest => ?_⟩
  · rw [step, hf, (State.fetch_of_entry hentry).trans (fetchPayload_unassigned hp hreject)]
  · have key := decodeSequencerOp_rejects op rest
    rw [decodeSetCursor_rejects, decodeWriteCommand_rejects, decodeWriteData_rejects] at key
    exact key
  · rw [← oneByteCommand_eq_none_iff]
    exact decodeControllerOp_rejects op rest

/-- An element put at an index is found there, also past the end of the list. -/
theorem getElem?_putAt {α : Type} (l : List α) (n : Nat) (a : α) : (putAt l n a)[n]? = some a := by
  induction n generalizing l with
  | zero => cases l <;> rfl
  | succ n ih =>
    cases l with
    | nil => exact ih []
    | cons x t => exact ih t

/-- Settles O12: the word's bytes are the entry the step fetches. -/
theorem fetchWordRunsNext : Obligations.FetchWordRunsNext := by
  intro s nbits w i hf hword
  have hentry : (s.withFetchWord nbits w).program[(s.withFetchWord nbits w).next]? =
      some ⟨.bytes (tablePort nbits w) (tableBytes nbits w), false⟩ := getElem?_putAt ..
  rw [decodeTableWord] at hword
  cases hdecode : decode (tablePort nbits w) (tableBytes nbits w) with
  | reject r => simp only [hdecode, reduceCtorEq] at hword
  | instr j rest =>
    simp only [hdecode, Option.some.injEq] at hword
    subst j
    exact step_of_run hf ((State.fetch_of_entry hentry).trans (fetchPayload_bytes_of_instr hdecode))

end Sys2Proof.Machine

/-! ## The bytes of a position (30_encoding R119 to R121) -/

namespace Sys2Proof.Machine

theorem pageCmd_eq (page : Int) : pageCmd page = 0xB0 ||| BitVec.ofInt 8 page := by
  have hlow : BitVec.ofNat 8 (page % 256).toNat = BitVec.ofInt 8 page := by
    refine BitVec.eq_of_toNat_eq ?_
    rw [BitVec.toNat_ofNat, BitVec.toNat_ofInt]
    omega
  rw [pageCmd, pageSelectByte, hlow]

theorem toNat_columnLowByte (nibble : BitVec 4) : (columnLowByte nibble).toNat = nibble.toNat := by
  revert nibble
  decide

theorem toNat_columnHighByte (nibble : BitVec 4) : (columnHighByte nibble).toNat = 0x10 + nibble.toNat := by
  revert nibble
  decide

/-- Settles O22: `low8`, `lo4` and `hi4` as remainders of the integer. -/
theorem positionBytes : Obligations.PositionBytes := by
  refine ⟨pageCmd_eq, fun p h0 h7 => ?_, fun c => ?_, fun c => ?_⟩
  · interval_cases p <;> rfl
  · rw [colLoCmd, toNat_columnLowByte, lo4, BitVec.toNat_ofNat]
    omega
  · rw [colHiCmd, toNat_columnHighByte, hi4, BitVec.toNat_ofNat]
    omega

end Sys2Proof.Machine

/-! ## ROT8 and ROT16 (41_font_transform R201 to R206) -/

namespace Sys2Proof.Machine

/-- Byte lists of one length with the same bits are the same. -/
theorem bytes_ext {n : Nat} {l m : List Byte} (hl : l.length = n) (hm : m.length = n)
    (h : ∀ k < n, ∀ r < 8, (l.getD k 0).getLsbD r = (m.getD k 0).getLsbD r) : l = m := by
  refine List.ext_getElem (hl.trans hm.symm) fun k hk hk' => ?_
  have hbyte := byte_ext (h k (hl ▸ hk))
  rwa [List.getD_eq_getElem _ _ hk, List.getD_eq_getElem _ _ hk'] at hbyte

/-- R201: bit r of output byte k is bit 7 - k of input byte r. -/
theorem getLsbD_rot8 (g : List Byte) {k r : Nat} (hk : k < 8) (hr : r < 8) :
    ((rot8 g).getD k 0).getLsbD r = (g.getD r 0).getLsbD (7 - k) := by
  rw [getD_rot8 g hk, rot8Byte_getLsbD _ _ hr]

/-- One turn of the source's loop: the accumulator moves down, the row's bit enters on top (R202). -/
theorem getLsbD_shiftIn (acc : Byte) (bit : Bool) {k : Nat} (hk : k < 8) :
    (if bit = true then (acc >>> 1) ||| 0x80 else acc >>> 1).getLsbD k =
      if k = 7 then bit else acc.getLsbD (k + 1) := by
  have top : (0x80 : Byte).getLsbD k = decide (k = 7) := by
    interval_cases k <;> rfl
  have down : (acc >>> 1).getLsbD k = acc.getLsbD (k + 1) := by rw [BitVec.getLsbD_ushiftRight, Nat.add_comm]
  have out : acc.getLsbD (7 + 1) = false := BitVec.getLsbD_of_ge acc 8 le_rfl
  cases bit with
  | false =>
    rw [if_neg Bool.false_ne_true, down]
    split
    · next h7 => rw [h7, out]
    · rfl
  | true =>
    rw [if_pos rfl, BitVec.getLsbD_or, top, down]
    split <;> simp [*]

/-- The loop over the rows left: the upper bits come from the rows, the lower ones are what the accumulator held there. -/
theorem getLsbD_rot8Plane (b : Nat) (rows : List Byte) (acc : Byte) {k : Nat} (hk : k < 8) (hrows : rows.length ≤ 8) :
    (rot8Plane b rows acc).getLsbD k =
      if k + rows.length < 8 then acc.getLsbD (k + rows.length)
      else (rows.getD (k + rows.length - 8) 0).getLsbD b := by
  induction rows generalizing acc with
  | nil => rw [rot8Plane, List.length_nil, if_pos (by omega), Nat.add_zero]
  | cons row rows ih =>
    rw [List.length_cons] at hrows ⊢
    rw [rot8Plane, ih _ (by omega)]
    by_cases hlow : k + rows.length < 8
    · rw [if_pos hlow, getLsbD_shiftIn _ _ hlow]
      by_cases hrow : k + rows.length = 7
      · have hfirst : k + (rows.length + 1) - 8 = 0 := by omega
        rw [if_pos hrow, if_neg (by omega), hfirst, List.getD_cons_zero]
      · rw [if_neg hrow, if_pos (by omega), Nat.add_assoc]
    · have hnext : k + (rows.length + 1) - 8 = k + rows.length - 8 + 1 := by omega
      rw [if_neg hlow, if_neg (by omega), hnext, List.getD_cons_succ]

/-- Settles O26: after eight rows the accumulator's first bits are gone, and bit r is row r's. -/
theorem rot8LoopAgrees : Obligations.Rot8LoopAgrees := by
  intro g hg
  refine bytes_ext (n := 8) (by simp [rot8Loop]) (length_rot8 g) fun k hk r hr => ?_
  have hbyte : (rot8Loop g).getD k 0 = rot8Plane (7 - k) g 0 := by
    simp [rot8Loop, List.getD_eq_getElem?_getD, hk]
  rw [hbyte, getLsbD_rot8 g hk hr, getLsbD_rot8Plane _ _ _ hr hg.le, hg, if_neg (by omega), Nat.add_sub_cancel]

/-- R203: twice ROT8 turns the glyph by 180 degrees. -/
theorem getLsbD_rot8_rot8 (g : List Byte) {k r : Nat} (hk : k < 8) (hr : r < 8) :
    ((rot8 (rot8 g)).getD k 0).getLsbD r = (g.getD (7 - k) 0).getLsbD (7 - r) := by
  rw [getLsbD_rot8 _ hk hr, getLsbD_rot8 _ hr (by omega)]

/-- R203: two half turns. -/
theorem rot8_four_times {g : List Byte} (hg : g.length = 8) : rot8 (rot8 (rot8 (rot8 g))) = g := by
  refine bytes_ext (length_rot8 _) hg fun k hk r hr => ?_
  have back {j : Nat} (hj : j < 8) : 7 - (7 - j) = j := by omega
  rw [getLsbD_rot8_rot8 _ hk hr, getLsbD_rot8_rot8 _ (by omega) (by omega), back hk, back hr]

/-- Settles O27: the inverse of ROT8 is ROT8 three times. -/
theorem rot8Turns : Obligations.Rot8Turns := by
  refine ⟨fun g k r _ hk hr => getLsbD_rot8_rot8 g hk hr, fun g hg => rot8_four_times hg, fun o ho => ?_⟩
  refine ⟨rot8 (rot8 (rot8 o)), ⟨length_rot8 _, rot8_four_times ho⟩, ?_⟩
  rintro g ⟨hg, rfl⟩
  exact (rot8_four_times hg).symm

/-- Settles O28: byte by byte, both sides are the same eight applications of R201. -/
theorem rot16Halves : Obligations.Rot16Halves := fun _ _ => ⟨rfl, rfl⟩

/-- Which bit of the input strip an output bit of ROT16 is (R204); a bit is a byte's index and a bit's. -/
def rot16Source (p : Fin 16 × Fin 8) : Fin 16 × Fin 8 :=
  if h : p.1.val < 8 then (⟨2 * p.2, by omega⟩, ⟨7 - p.1, by omega⟩)
  else (⟨2 * p.2 + 1, by omega⟩, ⟨15 - p.1, by omega⟩)

/-- A bit of a strip. -/
def stripBit (t : List Byte) (p : Fin 16 × Fin 8) : Bool := (t.getD p.1 0).getLsbD p.2

theorem stripBit_rot16 (t : List Byte) (p : Fin 16 × Fin 8) : stripBit (rot16 t) p = stripBit t (rot16Source p) := by
  obtain ⟨⟨k, hk⟩, ⟨r, hr⟩⟩ := p
  rw [stripBit, getD_rot16 t hk, rot16Byte, rot16Source]
  by_cases h : k < 8
  · rw [if_pos h, dif_pos h, rot8Byte_getLsbD _ _ hr]
    rfl
  · have hbit : 7 - (k - 8) = 15 - k := by omega
    rw [if_neg h, dif_neg h, rot8Byte_getLsbD _ _ hr, hbit]
    rfl

theorem stripBit_rot16_iterate (n : Nat) (t : List Byte) (p : Fin 16 × Fin 8) :
    stripBit (rot16^[n] t) p = stripBit t (rot16Source^[n] p) := by
  induction n generalizing t with
  | zero => rfl
  | succ n ih => rw [Function.iterate_succ_apply, ih, stripBit_rot16, Function.iterate_succ_apply']

theorem length_rot16_iterate (n : Nat) {t : List Byte} (ht : t.length = 16) : (rot16^[n] t).length = 16 := by
  cases n with
  | zero => exact ht
  | succ n => rw [Function.iterate_succ_apply', length_rot16]

theorem rot16Source_iterate_fourteen (p : Fin 16 × Fin 8) : rot16Source^[14] p = p := by
  revert p
  decide +kernel

/-- The orbit of bit 0 of byte 0 has 14 bits. -/
theorem rot16Source_iterate_ne_self {n : Nat} (h0 : 0 < n) (h14 : n < 14) : rot16Source^[n] (0, 0) ≠ (0, 0) := by
  interval_cases n <;> decide

/-- The strip with bit 0 of byte 0 alone. -/
def cornerStrip : List Byte := 0x01 :: List.replicate 15 0x00

theorem stripBit_cornerStrip (p : Fin 16 × Fin 8) : stripBit cornerStrip p = decide (p = (0, 0)) := by
  revert p
  decide +kernel

/-- Settles O29: ROT16 permutes the strip's 128 bits; the 14th power fixes each, and the corner's orbit has length 14. -/
theorem rot16OrderFourteen : Obligations.Rot16OrderFourteen := by
  refine ⟨fun t ht => bytes_ext (length_rot16_iterate 14 ht) ht fun k hk r hr => ?_, fun n h0 h14 => ?_⟩
  · have hbit := stripBit_rot16_iterate 14 t (⟨k, hk⟩, ⟨r, hr⟩)
    rw [rot16Source_iterate_fourteen] at hbit
    exact hbit
  · refine ⟨cornerStrip, rfl, fun same => rot16Source_iterate_ne_self h0 h14 ?_⟩
    have hbit := stripBit_rot16_iterate n cornerStrip (0, 0)
    rw [same, stripBit_cornerStrip, stripBit_cornerStrip] at hbit
    simpa using hbit

/-! ## XFORM8 and XFORM16 on the tables (41_font_transform R201, R204) -/

/-- R201 in FONT8: bit b of row byte r of glyph c becomes bit r of its byte 7 - b. -/
theorem getLsbD_rotateFont8 (m : Memory) {c r b : Nat} (hc : c < 256) (hr : r < 8) (hb : b < 8) :
    ((rotateFont8 m).read (8 * c + (7 - b))).getLsbD r = (m.read (8 * c + r)).getLsbD b := by
  have hglyph : (8 * c + (7 - b)) / 8 = c := by omega
  have hbyte : 7 - (8 * c + (7 - b)) % 8 = b := by omega
  rw [read_rotateFont8, if_pos (by simp only [font8Size]; omega), rot8Byte_getLsbD _ _ hr, hglyph, hbyte]

/-- Settles O30: the glyphs bit by bit, and a frame that is the definition's. -/
theorem xform8Result : Obligations.Xform8Result := by
  intro s
  refine ⟨s.xform8.ret none, rfl, fun c hc r hr b hb => getLsbD_rotateFont8 s.font8 hc hr hb, fun a ha => ?_, rfl, rfl,
    ⟨rfl, rfl, rfl, rfl, rfl⟩, ⟨rfl, rfl⟩, ⟨rfl, rfl⟩, ⟨by simp, by simp, rfl⟩, ⟨rfl, rfl, rfl⟩⟩
  rw [State.ret_font8, State.xform8_font8, read_rotateFont8, if_neg (by simp only [font8Size]; omega)]

/-- R204 in FONT16, the left half: bit b of even byte 2r of strip q becomes bit r of its byte 7 - b. -/
theorem getLsbD_rotateFont16_even (m : Memory) {q r b : Nat} (hq : q < 512) (hr : r < 8) (hb : b < 8) :
    ((rotateFont16 m).read (16 * q + (7 - b))).getLsbD r = (m.read (16 * q + 2 * r)).getLsbD b := by
  have hstrip : (16 * q + (7 - b)) / 16 = q := by omega
  have hmod : (16 * q + (7 - b)) % 16 = 7 - b := by omega
  have hbit : 7 - (7 - b) = b := by omega
  rw [read_rotateFont16, if_pos (by simp only [font16Size]; omega), hstrip, hmod, rot16Byte, if_pos (by omega),
    rot8Byte_getLsbD _ _ hr, hbit]

/-- R204 in FONT16, the right half: bit b of odd byte 2r + 1 of strip q becomes bit r of its byte 15 - b. -/
theorem getLsbD_rotateFont16_odd (m : Memory) {q r b : Nat} (hq : q < 512) (hr : r < 8) (hb : b < 8) :
    ((rotateFont16 m).read (16 * q + (15 - b))).getLsbD r = (m.read (16 * q + (2 * r + 1))).getLsbD b := by
  have hstrip : (16 * q + (15 - b)) / 16 = q := by omega
  have hmod : (16 * q + (15 - b)) % 16 = 15 - b := by omega
  have hbit : 7 - (15 - b - 8) = b := by omega
  rw [read_rotateFont16, if_pos (by simp only [font16Size]; omega), hstrip, hmod, rot16Byte, if_neg (by omega),
    rot8Byte_getLsbD _ _ hr, hbit]

/-- Settles O31: strip k of glyph c is strip 4c + k of the table. -/
theorem xform16Result : Obligations.Xform16Result := by
  intro s
  refine ⟨s.xform16.ret none, rfl, fun c hc k hk r hr b hb => ?_, fun a ha => ?_, rfl, rfl,
    ⟨rfl, rfl, rfl, rfl, rfl⟩, ⟨rfl, rfl⟩, ⟨rfl, rfl⟩, ⟨by simp, by simp, rfl⟩, ⟨rfl, rfl, rfl⟩⟩
  · have hstrip : 64 * c + 16 * k = 16 * (4 * c + k) := by omega
    rw [hstrip]
    exact ⟨getLsbD_rotateFont16_even s.font16 (by omega) hr hb, getLsbD_rotateFont16_odd s.font16 (by omega) hr hb⟩
  · rw [State.ret_font16, State.xform16_font16, read_rotateFont16, if_neg (by simp only [font16Size]; omega)]

end Sys2Proof.Machine

/-! ## The micro-operations and the controller's commands run on their own (40_session R160 to R172, log 7, log 9) -/

namespace Sys2Proof.Machine

theorem exec_writeCommand (bytes : List Byte) (s : State) :
    exec (.writeCommand bytes) s = .next (s.sentCommand bytes none) :=
  congrArg Host.Outcome.next (s.writeCommand_ret bytes none)

/-- A controller command is the command transfer of its own bytes (R122, R123, R125). -/
theorem exec_of_controller {i : Instr} (h : i.port = .controller) (s : State) :
    exec i s = sendCommand (encode i) s := by
  cases i <;> simp only [Instr.port, reduceCtorEq] at h <;> rfl

/-- Settles O24: `sendCommand` is one WRITE_COMMAND without a code. -/
theorem controllerCommandsSend : Obligations.ControllerCommandsSend := by
  intro i s h
  rw [exec_of_controller h, sendCommand, State.writeCommand_ret]

/-- Settles O20: WRITE_COMMAND looks at the kind, the handle, the line and the parameters, and at no memory. -/
theorem writeCommandResult : Obligations.WriteCommandResult := by
  intro bytes s
  refine ⟨exec_writeCommand bytes s, fun addressed => ?_, fun strobed => ?_, fun m c => ?_⟩
  · exact State.transferEvents_addressed addressed ..
  · exact State.transferEvents_strobed strobed ..
  · rw [exec_writeCommand]
    rfl

/-- Settles O21: three transfers and the cursor, then the return. -/
theorem setCursorResult : Obligations.SetCursorResult := by
  intro column page s
  obtain ⟨hemitted, hsession, htables, hinputs, hreturned⟩ := (inside_setCursor s column page).ret none
  exact ⟨(s.setCursor column page).ret none, rfl, s.setCursor_cursor column page, s.setCursor_shadow column page, hemitted,
    hsession, htables, hinputs, hreturned⟩

theorem exec_writeData (bytes : List Byte) (s : State) :
    exec (.writeData bytes) s = .next ((s.writeData bytes).finish (.writeData bytes) none) := rfl

/-- Settles O23: both sides of the range check R171 makes. -/
theorem writeDataResult : Obligations.WriteDataResult := by
  intro bytes s
  refine ⟨fun h0 h1 => ?_, fun addressed => ?_, fun strobed => ?_, fun hout => ?_⟩
  · obtain ⟨t, ht, hinside, hshadow, hcursor⟩ := writeData_go s bytes ((shadowInRange_iff _ _).mpr ⟨h0, h1⟩)
    obtain ⟨hemitted, hsession, htables, hinputs, hreturned⟩ := hinside.ret none
    refine ⟨t.ret none, by rw [exec_writeData, ht, Flow.finish_go], fun k hk => ?_, fun a ha => ?_, hcursor, hemitted,
      hsession, htables, hinputs, hreturned⟩
    · rw [State.ret_shadow, hshadow, Memory.read_writeBytes, if_pos (by omega), Nat.add_sub_cancel_left]
    · rw [State.ret_shadow, hshadow, Memory.read_writeBytes, if_neg (by omega)]
  · exact State.transferEvents_addressed addressed ..
  · exact State.transferEvents_strobed strobed ..
  · have hrange : shadowInRange s.cursor bytes.length = false := by
      rw [← Bool.not_eq_true, shadowInRange_iff]
      omega
    rw [exec_writeData, writeData_raised s bytes hrange, Flow.finish_raised]
    rfl

/-- Settles O13: every arm of the dispatch is a `next`. -/
theorem execAnswersState : Obligations.ExecAnswersState := by
  intro i s
  cases i <;> exact ⟨_, rfl⟩

end Sys2Proof.Machine

/-! ## SHUTDOWN (40_session R156, R157) -/

namespace Sys2Proof.Machine

theorem exec_shutdown_of_active {s : State} (active : s.session = .active) :
    exec .shutdown s = .next (s.closeSession.ret none) := by
  change execShutdown s = _
  rw [execShutdown, if_pos active]

theorem State.closeEvent_eq (s : State) :
    s.closeEvent = if s.kind = .addressed then .closeAddressed s.handle else .closeStrobed s.handle := by
  unfold State.closeEvent
  cases s.kind <;> rfl

/-- SHUTDOWN from Active draws the one answer of its command transfer, and changes SESSION and HANDLE besides (R156, R157). -/
theorem State.closeSession_eq (s : State) :
    s.closeSession =
      { s with trace := s.trace ++ (s.commandEvents [0xAE] ++ [s.closeEvent, .hwShutdown]), answers := s.answers.tail,
               drawCount := s.drawCount + 1, handle := none, session := .closed } := by
  rw [State.closeSession, State.writeCommand_eq]
  simp [State.emit]

/-- Settles O15: from Active the closed session's fields, otherwise a bare return. -/
theorem shutdownResult : Obligations.ShutdownResult := by
  intro s
  refine ⟨fun active => ⟨s.closeSession.ret none, exec_shutdown_of_active active, ?_⟩, exec_shutdown_of_inactive⟩
  rw [s.closeSession_eq, s.closeEvent_eq]
  exact ⟨⟨rfl, List.drop_one.symm, rfl⟩, rfl, rfl, rfl, rfl, rfl, ⟨rfl, rfl, rfl⟩, ⟨rfl, rfl⟩, ⟨rfl, rfl⟩, ⟨rfl, rfl, rfl⟩⟩

/-- Settles O47: the three codes, and SHUTDOWN's record on both its paths. -/
theorem responseBytes_spec : Obligations.ResponseBytes := by
  refine ⟨fun c => by cases c <;> rfl, ⟨rfl, rfl, rfl⟩, fun s => ?_, rfl⟩
  by_cases active : s.session = .active
  · refine ⟨_, exec_shutdown_of_active active, ?_⟩
    rw [s.closeSession_eq]
    rfl
  · exact ⟨_, exec_shutdown_of_inactive active, rfl⟩

end Sys2Proof.Machine

/-! ## INIT (40_session R150 to R155) -/

namespace Sys2Proof.Machine

theorem exec_init_of_active {s : State} (active : s.session = .active) (channel address : Nat)
    (flip invert strobed : Bool) (dcLine resetLine : Nat) :
    exec (.init channel address flip invert strobed dcLine resetLine) s =
      .next (s.raise .reinitActive (.record (.init channel address flip invert strobed dcLine resetLine))) := by
  change execInit channel address flip invert strobed dcLine resetLine s = _
  rw [execInit, if_pos active]

/-- INIT after its open call (R150): on the strobed transport both lines are registered and the controller is reset first. -/
def State.afterOpen (s : State) (handle : Nat) (flip invert strobed : Bool) (dcLine resetLine : Nat) : State :=
  if strobed then
    s.callOrFail (.gpioRegister dcLine) fun _ s =>
      s.callOrFail (.gpioRegister resetLine) fun _ s =>
        (s.resetPulse resetLine).startSession handle flip invert strobed dcLine resetLine
  else s.startSession handle flip invert strobed dcLine resetLine

theorem exec_init_of_inactive {s : State} (inactive : s.session ≠ .active) (channel address : Nat)
    (flip invert strobed : Bool) (dcLine resetLine : Nat) :
    exec (.init channel address flip invert strobed dcLine resetLine) s =
      .next (s.callOrFail .hwInit fun _ s =>
        s.callOrFail (s.openEvent channel address strobed) fun handle s =>
          s.afterOpen handle flip invert strobed dcLine resetLine) := by
  change execInit channel address flip invert strobed dcLine resetLine s = _
  rw [execInit, if_neg inactive]
  rfl

/-- INIT from a session that is not Active fails, or begins a session after calls that change nothing else (R150, R151). -/
theorem exec_init_cases {s : State} (inactive : s.session ≠ .active) (channel address : Nat)
    (flip invert strobed : Bool) (dcLine resetLine : Nat) :
    (∃ events calls,
      exec (.init channel address flip invert strobed dcLine resetLine) s = .next (s.failedInit events calls)) ∨
    ∃ u handle, (∃ e n, Inside s u e n) ∧ SameShadow s u ∧
      exec (.init channel address flip invert strobed dcLine resetLine) s =
        .next (u.startSession handle flip invert strobed dcLine resetLine) := by
  change (∃ _ _, execInit channel address flip invert strobed dcLine resetLine s = _) ∨
    ∃ _ _, _ ∧ _ ∧ execInit channel address flip invert strobed dcLine resetLine s = _
  rw [execInit, if_neg inactive]
  rcases s.initialize_cases channel address flip invert strobed dcLine resetLine with
    ⟨events, calls, heq⟩ | ⟨u, handle, hinside, hshadow, heq⟩
  · exact .inl ⟨events, calls, congrArg _ heq⟩
  · exact .inr ⟨u, handle, hinside, hshadow, congrArg _ heq⟩

/-- Settles O19: INIT tests the session first (R152). -/
theorem initWhileActiveRaises : Obligations.InitWhileActiveRaises :=
  fun channel address dcLine resetLine flip invert strobed _ active =>
    exec_init_of_active active channel address flip invert strobed dcLine resetLine

/-! ### A failed INIT -/

/-- A call answered with an error is a failed INIT with that one call (R151). -/
theorem State.callOrFail_failed {s : State} {e : Event} {k : Nat → State → State} (h : s.answerAt 0 = .error) :
    s.callOrFail e k = s.failedInit [e] 1 := by
  rw [State.callOrFail_error s e k h, State.failedInit, List.drop_one]
  rfl

/-- A failed INIT after one more call. -/
theorem State.called_failedInit (s : State) (e : Event) (events : List Event) (calls : Nat) :
    (s.called e).failedInit events calls = s.failedInit (e :: events) (calls + 1) := by
  simp [State.failedInit, State.called, State.emit, State.drawn, Nat.add_assoc, Nat.add_comm 1 calls]

theorem Answer.exists_ok {a : Answer} (h : a ≠ .error) : ∃ v, a = .ok v := by
  cases a with
  | ok v => exact ⟨v, rfl⟩
  | error => exact absurd rfl h

/-- Settles O18: the calls before the first error are answered Ok, so INIT reaches it and stops there. -/
theorem initFailureResult : Obligations.InitFailureResult := by
  intro channel address dcLine resetLine flip invert strobed s inactive i opened
  refine ⟨fun h0 => ?_, fun h0 h1 => ?_, fun hstrobed h0 h1 h2 => ?_, fun hstrobed h0 h1 h2 h3 => ?_⟩ <;>
    rw [exec_init_of_inactive inactive]
  · rw [State.callOrFail_failed h0]
  all_goals obtain ⟨v0, h0⟩ := Answer.exists_ok h0
  · rw [State.callOrFail_ok _ _ _ h0, State.callOrFail_failed (by rw [State.called_answerAt]; exact h1),
      State.called_failedInit]
    rfl
  all_goals
    obtain ⟨v1, h1⟩ := Answer.exists_ok h1
    subst hstrobed
  · rw [State.callOrFail_ok _ _ _ h0, State.callOrFail_ok _ _ _ (by rw [State.called_answerAt]; exact h1),
      State.afterOpen, if_pos rfl, State.callOrFail_failed (by simp only [State.called_answerAt]; exact h2),
      State.called_failedInit, State.called_failedInit]
    rfl
  · obtain ⟨v2, h2⟩ := Answer.exists_ok h2
    rw [State.callOrFail_ok _ _ _ h0, State.callOrFail_ok _ _ _ (by rw [State.called_answerAt]; exact h1),
      State.afterOpen, if_pos rfl, State.callOrFail_ok _ _ _ (by simp only [State.called_answerAt]; exact h2),
      State.callOrFail_failed (by simp only [State.called_answerAt]; exact h3), State.called_failedInit,
      State.called_failedInit, State.called_failedInit]
    rfl

/-! ### A successful INIT -/

theorem inside_called (s : State) (e : Event) : Inside s (s.called e) [e] 1 :=
  ⟨⟨rfl, rfl, rfl, rfl, rfl⟩, ⟨rfl, rfl, rfl⟩, ⟨rfl, rfl⟩, ⟨rfl, List.drop_one.symm, rfl⟩, rfl, rfl, rfl⟩

/-- The reset pulse: low, hold, release (R153). -/
theorem inside_resetPulse (s : State) (line : Nat) :
    Inside s (s.resetPulse line) [.gpioWrite line false, .delay s.params.resetHoldMs, .gpioWrite line true] 0 :=
  ⟨⟨rfl, rfl, rfl, rfl, rfl⟩, ⟨rfl, rfl, rfl⟩, ⟨rfl, rfl⟩, ⟨s.resetPulse_trace line, rfl, rfl⟩, rfl, rfl, rfl⟩

theorem Emitted.trans {s u t : State} {e e' : List Event} {n n' : Nat} (h : Emitted s u e n) (h' : Emitted u t e' n') :
    Emitted s t (e ++ e') (n + n') where
  trace := by rw [h'.trace, h.trace, List.append_assoc]
  answers := by rw [h'.answers, h.answers, List.drop_drop]
  drawCount := by rw [h'.drawCount, h.drawCount, Nat.add_assoc]

theorem SameShadow.trans {s u t : State} (h : SameShadow s u) (h' : SameShadow u t) : SameShadow s t :=
  ⟨h'.shadow.trans h.shadow, h'.cursor.trans h.cursor⟩

theorem SameInputs.trans {s u t : State} (h : SameInputs s u) (h' : SameInputs u t) : SameInputs s t :=
  ⟨h'.program.trans h.program, h'.params.trans h.params⟩

/-- A return at the end of operations inside a request returns from the request. -/
theorem Inside.returned {s u t : State} {e : List Event} {n : Nat} {c : Option Code} (h : Inside s u e n)
    (h' : Returned u t c) : Returned s t c :=
  ⟨by rw [h'.responses, h.responses], by rw [h'.next, h.next], h'.fault.trans h.fault⟩

/-- What INIT does with the tables does not depend on the calls before. -/
theorem Inside.tablesAfterInit {s u t : State} {e : List Event} {n : Nat} (h : Inside s u e n)
    (h' : TablesAfterInit u t) : TablesAfterInit s t := by
  unfold TablesAfterInit at h' ⊢
  rw [h.inputs.params, h.tables.xformCount, h.tables.font8, h.tables.font16] at h'
  split at h'
  · next skipped =>
    rw [if_pos skipped]
    exact ⟨h'.font8.trans h.tables.font8, h'.font16.trans h.tables.font16, h'.xformCount.trans h.tables.xformCount⟩
  · next applied =>
    rw [if_neg applied]
    exact h'

/-- INIT once nothing can fail any more, as the end of a request: what startSession_spec says, of the state before its calls. -/
structure Opened (s t : State) (handle : Nat) : Prop where
  session : t.session = .active
  handle : t.handle = some handle
  tables : TablesAfterInit s t
  shadow : SameShadow s t
  inputs : SameInputs s t
  returned : Returned s t (some .zero)

theorem Inside.opened {s u : State} {e : List Event} {n : Nat} (h : Inside s u e n) (hs : SameShadow s u) (handle : Nat)
    (flip invert strobed : Bool) (dcLine resetLine : Nat) :
    Opened s (u.startSession handle flip invert strobed dcLine resetLine) handle := by
  obtain ⟨hsession, hhandle, htables, hshadow, hinputs, hreturned, -⟩ :=
    u.startSession_spec handle flip invert strobed dcLine resetLine
  exact ⟨hsession, hhandle, h.tablesAfterInit htables, hs.trans hshadow, h.inputs.trans hinputs, h.returned hreturned⟩

/-- The registers INIT commits besides the handle, and its transfers: `INIT_SEQ`, then the commands asked for (R150, R154). -/
theorem State.startSession_registers (s : State) (handle : Nat) (flip invert strobed : Bool) (dcLine resetLine : Nat) :
    let t := s.startSession handle flip invert strobed dcLine resetLine
    let u := s.commitSession handle strobed dcLine resetLine
    t.kind = u.kind ∧ t.dcLine = u.dcLine ∧ t.rstLine = u.rstLine ∧
      Emitted s t (u.commandEvents s.params.initSeq ++ (if invert then u.commandEvents [0xA7] else []) ++
          (if flip then u.commandEvents [0xA0] ++ u.commandEvents [0xC0] else []))
        (1 + ((if invert then 1 else 0) + (if flip then 2 else 0))) := by
  intro t u
  have hsame (bytes : List Byte) : ((u.writeCommand s.params.initSeq).xform).commandEvents bytes = u.commandEvents bytes :=
    State.commandEvents_congr (by simp) (by simp) (by simp) (by simp) bytes
  have ht : t = { ((u.writeCommand s.params.initSeq).xform).optionalCommands flip invert with session := .active }.ret
    (some .zero) := rfl
  rw [ht, State.optionalCommands_eq]
  refine ⟨?_, ?_, ?_, ?_, ?_, ?_⟩
  · simp
  · simp
  · simp
  · simp [hsame, u]
  · simp [u, ← List.drop_one]
  · simp [u, Nat.add_assoc]

/-- The state INIT begins an addressed session in: the layer and the transport opened (R150). -/
def State.openedAddressed (s : State) (channel address : Nat) : State :=
  (s.called .hwInit).called (.openAddressed channel address)

theorem inside_openedAddressed (s : State) (channel address : Nat) :
    Inside s (s.openedAddressed channel address) [.hwInit, .openAddressed channel address] 2 :=
  (inside_called s _).trans (inside_called _ _)

theorem exec_init_addressed {s : State} (inactive : s.session ≠ .active) {v handle : Nat} (h0 : s.answerAt 0 = .ok v)
    (h1 : s.answerAt 1 = .ok handle) (channel address : Nat) (flip invert : Bool) (dcLine resetLine : Nat) :
    exec (.init channel address flip invert false dcLine resetLine) s =
      .next ((s.openedAddressed channel address).startSession handle flip invert false dcLine resetLine) := by
  rw [exec_init_of_inactive inactive, State.callOrFail_ok _ _ _ h0,
    State.callOrFail_ok _ _ _ (by rw [State.called_answerAt]; exact h1), State.afterOpen, if_neg Bool.false_ne_true]
  rfl

/-- Settles O16: the two calls, then the session begun on the addressed transport. -/
theorem initAddressedResult : Obligations.InitAddressedResult := by
  intro channel address dcLine resetLine v handle flip invert s inactive h0 h1
  have hcalls := inside_openedAddressed s channel address
  have hopened := hcalls.opened ⟨rfl, rfl⟩ handle flip invert false dcLine resetLine
  obtain ⟨hkind, hdc, hrst, hemitted⟩ :=
    (s.openedAddressed channel address).startSession_registers handle flip invert false dcLine resetLine
  refine ⟨_, exec_init_addressed inactive h0 h1 ..,
    hopened.session, hkind, hopened.handle, hdc, hrst, ?_, hopened.tables, hopened.shadow, hopened.inputs,
    hopened.returned⟩
  convert hcalls.emitted.trans hemitted using 1
  · simp [State.commandEvents, State.transferEvents, hcalls.inputs.params]
  · omega

/-- The state INIT begins a strobed session in: the layer and the transport opened, both lines registered, the controller
reset (R150, R153). -/
def State.openedStrobed (s : State) (channel dcLine resetLine : Nat) : State :=
  ((((s.called .hwInit).called (.openStrobed channel s.params.strobedClockHz)).called (.gpioRegister dcLine)).called
    (.gpioRegister resetLine)).resetPulse resetLine

theorem inside_openedStrobed (s : State) (channel dcLine resetLine : Nat) :
    Inside s (s.openedStrobed channel dcLine resetLine)
      [.hwInit, .openStrobed channel s.params.strobedClockHz, .gpioRegister dcLine, .gpioRegister resetLine,
        .gpioWrite resetLine false, .delay s.params.resetHoldMs, .gpioWrite resetLine true] 4 :=
  ((((inside_called s _).trans (inside_called _ _)).trans (inside_called _ _)).trans (inside_called _ _)).trans
    (inside_resetPulse _ resetLine)

theorem sameShadow_openedStrobed (s : State) (channel dcLine resetLine : Nat) :
    SameShadow s (s.openedStrobed channel dcLine resetLine) :=
  ⟨by simp [State.openedStrobed], by simp [State.openedStrobed]⟩

theorem exec_init_strobed {s : State} (inactive : s.session ≠ .active) {v handle v2 v3 : Nat}
    (h0 : s.answerAt 0 = .ok v) (h1 : s.answerAt 1 = .ok handle) (h2 : s.answerAt 2 = .ok v2)
    (h3 : s.answerAt 3 = .ok v3) (channel address : Nat) (flip invert : Bool) (dcLine resetLine : Nat) :
    exec (.init channel address flip invert true dcLine resetLine) s =
      .next ((s.openedStrobed channel dcLine resetLine).startSession handle flip invert true dcLine resetLine) := by
  rw [exec_init_of_inactive inactive, State.callOrFail_ok _ _ _ h0,
    State.callOrFail_ok _ _ _ (by rw [State.called_answerAt]; exact h1), State.afterOpen, if_pos rfl,
    State.callOrFail_ok _ _ _ (by simp only [State.called_answerAt]; exact h2),
    State.callOrFail_ok _ _ _ (by simp only [State.called_answerAt]; exact h3)]
  rfl

/-- Settles O17: the four calls and the reset pulse, then the session begun on the strobed transport. -/
theorem initStrobedResult : Obligations.InitStrobedResult := by
  intro channel address dcLine resetLine v handle v2 v3 flip invert s inactive h0 h1 h2 h3
  have hcalls := inside_openedStrobed s channel dcLine resetLine
  have hopened := hcalls.opened (sameShadow_openedStrobed ..) handle flip invert true dcLine resetLine
  obtain ⟨hkind, hdc, hrst, hemitted⟩ :=
    (s.openedStrobed channel dcLine resetLine).startSession_registers handle flip invert true dcLine resetLine
  refine ⟨_, exec_init_strobed inactive h0 h1 h2 h3 ..,
    hopened.session, hkind, hopened.handle, hdc, hrst, ?_, hopened.tables, hopened.shadow, hopened.inputs,
    hopened.returned⟩
  convert hcalls.emitted.trans hemitted using 1
  · simp [State.commandEvents, State.transferEvents, hcalls.inputs.params]
  · omega

end Sys2Proof.Machine

/-! ## FILL (42_drawing R230, R231) -/

namespace Sys2Proof.Machine

theorem exec_fill_of_active {s : State} (active : s.session = .active) (pattern : Byte) :
    exec (.fill pattern) s =
      .next ((fillPages pattern (List.range' 0 8) s).finish (.fill pattern) (some .zero)) := by
  change execFill pattern s = _
  rw [execFill, if_pos active, pageCount, List.range_eq_range']

/-- Settles O32: the eight pages are in range, so every byte of the shadow is written. -/
theorem fillResult : Obligations.FillResult := by
  intro pattern s
  refine ⟨fun active => ?_, fun inactive => exec_fill_of_inactive inactive pattern⟩
  obtain ⟨t, ht, hinside, hread, hcursor⟩ := fillPages_go pattern 8 0 rfl s
  obtain ⟨hemitted, hsession, htables, hinputs, hreturned⟩ := hinside.ret (some .zero)
  rw [← List.range_eq_range'] at hemitted
  refine ⟨t.ret (some .zero), by rw [exec_fill_of_active active, ht, Flow.finish_go], fun a ha => ?_, fun a ha => ?_,
    hcursor (by decide), hemitted, hsession, htables, hinputs, hreturned⟩
  · rw [State.ret_shadow, hread, if_pos (by omega)]
  · rw [State.ret_shadow, hread, if_neg (by omega)]

end Sys2Proof.Machine

/-! ## SET_PIXEL (42_drawing R232 to R238) -/

namespace Sys2Proof.Machine

/-- R234: in coordinate mode the test is on the panel's coordinates. -/
theorem pixOk_coordinate_iff (x y : Int) :
    pixOk .coordinate x y = true ↔ 0 ≤ x ∧ x ≤ 127 ∧ 0 ≤ y ∧ y ≤ 63 := by
  simp only [pixOk, Bool.and_eq_true, decide_eq_true_eq, and_assoc]

/-- Settles O36: on the panel's columns the shadow index is in range exactly for the panel's rows. -/
theorem pixelModesAgree : Obligations.PixelModesAgree := by
  refine fun x y => ⟨pixOk_coordinate_iff x y, fun h0 h127 => ?_⟩
  rw [Bool.eq_iff_iff, pixOk_index_iff, pixOk_coordinate_iff]
  omega

theorem exec_setPixel_of_not_pixOk {s : State} {x y : Int} (c : Byte) (active : s.session = .active)
    (h : pixOk s.params.pixelBounds x y = false) :
    exec (.setPixel x y c) s = .next (s.onlyAnswered (some .minusOne)) := by
  change execSetPixel x y c s = _
  rw [execSetPixel, if_pos active, if_neg (by simp [h]), State.ret_eq_onlyAnswered]

/-- R236: an accepted pixel whose byte stays is only answered. -/
theorem exec_setPixel_of_same {s : State} {x y : Int} {c : Byte} (active : s.session = .active)
    (hok : pixOk s.params.pixelBounds x y = true)
    (same : pixelByte (s.shadow.read (y / 8 * 128 + x).toNat) y c = s.shadow.read (y / 8 * 128 + x).toNat) :
    exec (.setPixel x y c) s = .next (s.onlyAnswered (some .zero)) := by
  rw [exec_setPixel_of_pixOk c active hok, s.drawPixel_eq c (pixOk_range hok), if_pos same, Flow.finish_go,
    State.ret_eq_onlyAnswered]

/-- Settles O39: the byte R235 gives is `pixelByte`'s; where it differs it is positioned and written in range. -/
theorem setPixelResult : Obligations.SetPixelResult := by
  intro x y color s
  refine ⟨fun inactive => exec_setPixel_of_inactive inactive x y color,
    fun active hout => exec_setPixel_of_not_pixOk color active hout, fun active hok => ?_⟩
  intro i old new
  have hrange : 0 ≤ i ∧ i ≤ 1023 := pixOk_range hok
  have hnew : new = pixelByte old y color := rfl
  refine ⟨fun same => exec_setPixel_of_same active hok (hnew ▸ same), fun changed => ?_⟩
  obtain ⟨t, ht, hinside, hshadow, hcursor⟩ := setCursor_writeData_go s x (y / 8) [new] hrange.1
    (by simp only [List.length_singleton]; omega)
  obtain ⟨hemitted, hsession, htables, hinputs, hreturned⟩ := hinside.ret (some .zero)
  have hread (a : Nat) : t.shadow.read a = if i.toNat = a then new else s.shadow.read a := by
    rw [hshadow, Memory.writeBytes, Memory.writeBytes, Memory.read_write]
  refine ⟨t.ret (some .zero), ?_, ?_, fun a ha => ?_, hcursor, hemitted, hsession, htables, hinputs, hreturned⟩
  · have hput : s.drawPixel x y color = .go t :=
      (s.drawPixel_eq color hrange).trans ((if_neg changed).trans ht)
    rw [exec_setPixel_of_pixOk color active hok, hput, Flow.finish_go]
  · rw [State.ret_shadow, hread, if_pos rfl]
  · rw [State.ret_shadow, hread, if_neg (by omega)]

/-- R235: a second color that is zero exactly when the first was changes no bit. -/
theorem pixelByte_pixelByte (old : Byte) (y : Int) {c c' : Byte} (h : c = 0 ↔ c' = 0) :
    pixelByte (pixelByte old y c) y c' = pixelByte old y c := by
  have hcolor : decide (c' ≠ 0) = decide (c ≠ 0) := decide_eq_decide.mpr h.symm.not
  refine byte_ext fun k hk => ?_
  rw [pixelByte_getLsbD _ _ _ hk, pixelByte_getLsbD _ _ _ hk, hcolor]
  split <;> rfl

/-- Settles O40: the first SET_PIXEL left the byte that the second one would. -/
theorem setPixelTwiceWritesOnce : Obligations.SetPixelTwiceWritesOnce := by
  intro x y color color' s t active hok hcolor hexec
  obtain ⟨u, _, _, hu, hinside, hread⟩ := s.drawPixel_go color (pixOk_range hok)
  rw [exec_setPixel_of_pixOk color active hok, hu, Flow.finish_go] at hexec
  cases hexec
  refine exec_setPixel_of_same (hinside.session.session.trans active) ?_ ?_
  · rw [State.ret_params, hinside.inputs.params, hok]
  · rw [State.ret_shadow, hread, if_pos rfl, pixelByte_pixelByte _ _ hcolor]

end Sys2Proof.Machine

/-! ## WRITE_STRING (42_drawing R239 to R243) -/

namespace Sys2Proof.Machine

/-- R284 past the session: the cell's test, the fit's test, then the drawing. -/
theorem exec_writeString_of_active {s : State} (active : s.session = .active) (col row : Int) (text : List Byte)
    (large : Bool) :
    exec (.writeString col row text large) s =
      .next (if badCell col row then s.raise (.badArgument col row) (.record (.writeString col row text large))
        else if fitLength col text large ≤ 0 then s.ret (some .minusOne)
        else (s.drawText col row (text.take (fitLength col text large).toNat) large).finish
          (.writeString col row text large) (some .zero)) := by
  change execWriteString col row text large s = _
  rw [execWriteString, if_pos active]

/-- Settles O41: the cell is tested before the text (R243, R284). -/
theorem badArgumentRaised : Obligations.BadArgumentRaised := by
  intro col row text large s active hbad
  have hcell : badCell col row = true := by
    rw [← Bool.not_eq_false, badCell_eq_false_iff]
    omega
  rw [exec_writeString_of_active active, if_pos hcell]
  rfl

/-- Settles O34: the pixel test and, in a good cell, the fit test end their request with -1. -/
theorem outOfBoundsFails : Obligations.OutOfBoundsFails := by
  intro s active
  refine ⟨fun x y color hout => exec_setPixel_of_not_pixOk color active hout,
    fun col row text large hcol hrow0 hrow7 hnone => ?_⟩
  have hfit : fitLength col text large ≤ 0 := hnone
  have hcell := (badCell_eq_false_iff col row).mpr ⟨hcol, hrow0, hrow7⟩
  rw [exec_writeString_of_active active, if_neg (by simp [hcell]), if_pos hfit, State.ret_eq_onlyAnswered]

/-- R241: in the small font the text is one position and its characters. -/
theorem State.drawText_small (s : State) (col row : Int) (text : List Byte) :
    s.drawText col row text false = drawSmall text (s.setCursor (col * 8) row) := rfl

/-- Settles O42: the characters that fit end at column 128 of their page at the latest, so the shadow holds them. -/
theorem smallTextResult : Obligations.SmallTextResult := by
  intro col row text s active hc0 hc16 hr0 hr7 hne shown start
  have hroom : col + shown.length ≤ 16 := by
    have : shown.length ≤ (16 - col).toNat := List.length_take_le ..
    omega
  have hposition := inside_setCursor s (col * 8) row
  have hcursor : (s.setCursor (col * 8) row).cursor = row * 128 + col * 8 := s.setCursor_cursor ..
  obtain ⟨t, ht, hinside, hglyphs, hothers, hend⟩ :=
    drawSmall_go shown (s.setCursor (col * 8) row) (by omega) (by omega)
  rw [hcursor] at hglyphs hothers hend
  obtain ⟨hemitted, hsession, htables, hinputs, hreturned⟩ := (hposition.trans hinside).ret (some .zero)
  simp only [hposition.dataEvents, hposition.glyph8] at hemitted
  refine ⟨t.ret (some .zero), ?_, fun k hk n hn => ?_, fun a ha => ?_, ?_, hroom, hemitted, hsession, htables, hinputs,
    hreturned⟩
  · have hdraw : s.drawText col row (text.take (cellsPerRow false - col).toNat) false = .go t :=
      (s.drawText_small ..).trans ht
    rw [exec_writeString_of_fits false active ⟨hc0, hr0, hr7⟩ hc16 hne, hdraw, Flow.finish_go]
  · rw [← hposition.tables.font8]
    exact hglyphs k hk n hn
  · rw [State.ret_shadow, hothers a ha, State.setCursor_shadow]
  · rw [State.ret_cursor, hend]
    omega

/-- The characters before the one that faults: in range, or none (rows 6 and 7). -/
theorem drawLarge_before (row : Int) (r0 : 0 ≤ row) (before : List Byte) (hrow : row ≤ 5 ∨ before = []) (cell : Int)
    (s : State) (hc : ∀ c ∈ before, c.toNat < 128) (h0 : 0 ≤ cell) (h1 : cell + before.length ≤ 8) :
    ∃ t, drawLarge row before cell s = .go t ∧
      Inside s t (s.largeTextEvents row before cell) (12 * before.length) ∧
      (∀ k < before.length, ∀ j < 3, ∀ n < 16,
        t.shadow.read (((row + (j : Nat)) * 128 + (cell + (k : Nat)) * 16).toNat + n) =
          s.font16.read (64 * (before.getD k 0).toNat + 16 * j + n)) ∧
      (∀ a, (∀ j < 3, a < ((row + (j : Nat)) * 128 + cell * 16).toNat ∨
        ((row + (j : Nat)) * 128 + cell * 16).toNat + 16 * before.length ≤ a) → t.shadow.read a = s.shadow.read a) ∧
      t.cursor = if before = [] then s.cursor else (row + 2) * 128 + 16 * (cell + before.length) := by
  by_cases hnil : before = []
  · subst hnil
    exact ⟨s, rfl, Inside.refl s, by simp, fun _ _ => rfl, by simp⟩
  · obtain ⟨t, ht, hinside, hglyphs, hothers, hcursor⟩ :=
      drawLarge_go row r0 (hrow.resolve_right hnil) before cell s hc h0 h1
    exact ⟨t, ht, hinside, hglyphs, hothers, by rw [hcursor (List.length_pos_iff.mpr hnil), if_neg hnil]⟩

/-- R243: a character without a glyph faults before its first transfer. -/
theorem drawLarge_glyphRange (row : Int) {c : Byte} (hc : 128 ≤ c.toNat) (after : List Byte) (cell : Int) (s : State) :
    drawLarge row (c :: after) cell s = .raised (.glyphRange c) s := by
  rw [drawLarge, drawLargeGlyph, if_pos hc, Flow.andThen_raised]

/-- Settles O44: the characters before are drawn as in a text of their own, then the code without a glyph is reached. -/
theorem glyphRangeRaised : Obligations.GlyphRangeRaised := by
  intro col row text before after c s active hc0 hr0 hrow hshown hcodes hc
  have hlen : before.length + (after.length + 1) ≤ (8 - col).toNat := by
    have := List.length_take_le (8 - col).toNat text
    rwa [hshown, List.length_append, List.length_cons] at this
  have hne : text ≠ [] := by
    rintro rfl
    simp at hshown
  obtain ⟨t, ht, hinside, hglyphs, hothers, hcursor⟩ :=
    drawLarge_before row hr0 before (hrow.imp_right And.right) col s hcodes hc0 (by omega)
  obtain ⟨hraised, hemitted, hsession, htables, hinputs⟩ :=
    hinside.raise (.glyphRange c) (.writeString col row text true)
  refine ⟨_, ?_, hraised, hemitted, hglyphs, hothers, hcursor, hsession, htables, hinputs⟩
  have hdraw : s.drawText col row (text.take (cellsPerRow true - col).toNat) true = .raised (.glyphRange c) t := by
    have htake : text.take (cellsPerRow true - col).toNat = before ++ c :: after := hshown
    rw [htake, State.drawText_large, drawLarge_append row before (c :: after) col s t ht, drawLarge_glyphRange row hc]
  have hcell : 0 ≤ col ∧ 0 ≤ row ∧ row ≤ 7 := by omega
  have hcol : col < cellsPerRow true := by change col < 8; omega
  rw [exec_writeString_of_fits true active hcell hcol hne, hdraw, Flow.finish_raised]

/-- The first `n` strips of a large character at a cell: their events, their bytes, and every other byte as before (R242). -/
structure StripsDrawn (c : Byte) (cell row : Int) (n : Nat) (s t : State) : Prop where
  inside : Inside s t ((List.range n).flatMap fun k =>
    s.positionEvents (cell * 16) (row + (k : Nat)) ++ s.dataEvents (s.strip16Bytes c k)) (4 * n)
  drawn : ∀ k < n, ∀ j < 16, t.shadow.read (((row + (k : Nat)) * 128 + cell * 16).toNat + j) =
    s.font16.read (64 * c.toNat + 16 * k + j)
  others : ∀ a, (∀ k < n, a < ((row + (k : Nat)) * 128 + cell * 16).toNat ∨
    ((row + (k : Nat)) * 128 + cell * 16).toNat + 16 ≤ a) → t.shadow.read a = s.shadow.read a

theorem StripsDrawn.zero (c : Byte) (cell row : Int) (s : State) : StripsDrawn c cell row 0 s s :=
  ⟨Inside.refl s, by simp, fun _ _ => rfl⟩

/-- The next strip, on a page of the panel. -/
theorem StripsDrawn.succ {c : Byte} {cell row : Int} {n : Nat} {s t : State} (h : StripsDrawn c cell row n s t)
    (h0 : 0 ≤ cell) (h8 : cell < 8) (hr : 0 ≤ row) (hpage : row + n ≤ 7) :
    ∃ u, drawStrip c cell row n t = .go u ∧ StripsDrawn c cell row (n + 1) s u := by
  obtain ⟨u, hu, hinside, hshadow, -⟩ := setCursor_writeData_go t (cell * 16) (row + n) (t.strip16 c n) (by omega)
    (by rw [State.length_strip16]; omega)
  have hread (a : Nat) : u.shadow.read a =
      if ((row + (n : Nat)) * 128 + cell * 16).toNat ≤ a ∧ a < ((row + (n : Nat)) * 128 + cell * 16).toNat + 16 then
        (t.strip16 c n).getD (a - ((row + (n : Nat)) * 128 + cell * 16).toNat) 0 else t.shadow.read a := by
    rw [hshadow, Memory.read_writeBytes, State.length_strip16]
  refine ⟨u, hu, ?_, fun k hk j hj => ?_, fun a ha => ?_⟩
  · rw [List.range_succ, List.flatMap_append, List.flatMap_singleton, Nat.mul_succ, State.strip16Bytes_eq,
      ← h.inside.strip16, ← h.inside.positionEvents, ← h.inside.dataEvents]
    exact h.inside.trans hinside
  · rw [hread]
    by_cases hlast : k = n
    · subst hlast
      rw [if_pos (by omega), Nat.add_sub_cancel_left, h.inside.strip16, State.strip16, Memory.getD_readBytes _ _ _ _ hj]
    · rw [if_neg (by omega), h.drawn k (by omega) j hj]
  · have hlast := ha n (by omega)
    rw [hread, if_neg (by omega)]
    exact h.others a fun k hk => ha k (by omega)

/-- The strip whose page is 8: positioned, then `ShadowRange` (R171, R243). -/
theorem drawStrip_raised (c : Byte) {cell row : Int} {k : Nat} (h0 : 0 ≤ cell) (hpage : row + k = 8) (s : State) :
    drawStrip c cell row k s = .raised (.shadowRange (1024 + cell * 16) 16) (s.setCursor (cell * 16) 8) := by
  rw [drawStrip, hpage, setCursor_writeData_raised _ _ _ _ (by rw [State.length_strip16]; omega), State.length_strip16]
  rfl

/-- R243(d): at rows 6 and 7 the strips of the pages up to 7 are drawn, and the next one faults. -/
theorem drawLargeGlyph_lowRow {c : Byte} (hc : c.toNat < 128) {cell row : Int} (h0 : 0 ≤ cell) (h8 : cell < 8)
    (hrow : row = 6 ∨ row = 7) (s : State) :
    ∃ u, StripsDrawn c cell row (8 - row).toNat s u ∧ drawLargeGlyph c cell row s =
      .raised (.shadowRange (1024 + cell * 16) 16) (u.setCursor (cell * 16) 8) := by
  obtain ⟨u0, hu0, first⟩ := (StripsDrawn.zero c cell row s).succ h0 h8 (by omega) (by omega)
  rcases hrow with rfl | rfl
  · obtain ⟨u1, hu1, second⟩ := first.succ h0 h8 (by omega) (by omega)
    refine ⟨u1, second, ?_⟩
    rw [drawLargeGlyph, if_neg (by omega), hu0, Flow.andThen_go, hu1, Flow.andThen_go, drawStrip_raised c h0 rfl]
  · refine ⟨u0, first, ?_⟩
    rw [drawLargeGlyph, if_neg (by omega), hu0, Flow.andThen_go, drawStrip_raised c h0 rfl, Flow.andThen_raised]

/-- Settles O45: the first character faults at page 8, so nothing after it is drawn. -/
theorem largeTextLowRowsRaise : Obligations.LargeTextLowRowsRaise := by
  intro col row text rest c s active hc0 hc8 hrow htext hc strips
  subst htext
  obtain ⟨u, hstrips, hglyph⟩ := drawLargeGlyph_lowRow hc hc0 hc8 hrow s
  have hinside := hstrips.inside.trans (inside_setCursor u (col * 16) 8)
  rw [hstrips.inside.positionEvents] at hinside
  obtain ⟨hraised, hemitted, hsession, htables, hinputs⟩ :=
    hinside.raise (.shadowRange (1024 + col * 16) 16) (.writeString col row (c :: rest) true)
  refine ⟨_, ?_, hraised, ?_, ?_, u.setCursor_cursor (col * 16) 8, hemitted, hsession, htables, hinputs⟩
  · have hdraw : s.drawText col row ((c :: rest).take (cellsPerRow true - col).toNat) true =
        .raised (.shadowRange (1024 + col * 16) 16) (u.setCursor (col * 16) 8) := by
      obtain ⟨n, hn⟩ : ∃ n, (cellsPerRow true - col).toNat = n + 1 :=
        Nat.exists_eq_succ_of_ne_zero (by change (8 - col).toNat ≠ 0; omega)
      rw [hn, List.take_succ_cons, State.drawText_large, drawLarge, hglyph, Flow.andThen_raised]
    rw [exec_writeString_of_fits true active (by omega) hc8 (List.cons_ne_nil c rest), hdraw, Flow.finish_raised]
  · rw [State.raise_shadow, State.setCursor_shadow]
    exact hstrips.drawn
  · rw [State.raise_shadow, State.setCursor_shadow]
    exact hstrips.others

end Sys2Proof.Machine

/-! ## Reset (10_state R48) -/

namespace Sys2Proof.Machine

/-- Settles O46: the reset state's fields, and memories with nothing listed. -/
theorem resetValues : Obligations.ResetValues :=
  ⟨rfl, rfl, rfl, rfl, rfl, rfl, rfl, fun _ => ⟨rfl, rfl, rfl⟩⟩

/-- Settles O49: memories with nothing listed are in canonical form, and no session was opened. -/
theorem resetInvariant : Obligations.ResetInvariant where
  shadow_wf := Memory.wf_empty _ _
  font8_wf := Memory.wf_empty _ _
  font16_wf := Memory.wf_empty _ _
  params_wf := rfl
  handle_iff := by simp [State.reset]
  transformed := .inl rfl
  counted := rfl

end Sys2Proof.Machine

/-! ## What an instruction answers (10_state R31, 60_exceptions R270, R276) -/

namespace Sys2Proof.Machine

theorem returned_onlyAnswered (s : State) (code : Option Code) : Returned s (s.onlyAnswered code) code := ⟨rfl, rfl, rfl⟩

theorem returned_failedInit (s : State) (events : List Event) (calls : Nat) :
    Returned s (s.failedInit events calls) (some .one) := ⟨rfl, rfl, rfl⟩

theorem returned_ret_of_inside {s t : State} (h : ∃ e n, Inside s t e n) (code : Option Code) :
    Returned s (t.ret code) code := by
  obtain ⟨e, n, h⟩ := h
  exact (h.ret code).2.2.2.2

/-- The end of the drawing operations raises, or returns their code. -/
theorem Flow.finish_raised_or_returned {s : State} {x : Flow} (h : ∃ e n, Inside s x.state e n) (i : Instr)
    (code : Option Code) : (∃ cause, Raised s (x.finish i code) cause i) ∨ Returned s (x.finish i code) code := by
  cases x with
  | go u => exact .inr (returned_ret_of_inside h code)
  | raised cause u =>
    obtain ⟨e, n, h⟩ := h
    exact .inl ⟨cause, (h.raise cause i).1⟩

/-- INIT from a session that is not Active fails with the code 1, or returns 0. -/
theorem exec_init_answers {s : State} (inactive : s.session ≠ .active) (channel address : Nat)
    (flip invert strobed : Bool) (dcLine resetLine : Nat) :
    ∃ t, exec (.init channel address flip invert strobed dcLine resetLine) s = .next t ∧
      ((∃ events calls, t = s.failedInit events calls) ∨ Returned s t (some .zero)) := by
  rcases exec_init_cases inactive channel address flip invert strobed dcLine resetLine with
    ⟨events, calls, hexec⟩ | ⟨u, handle, ⟨e, n, hu⟩, hshadow, hexec⟩
  · exact ⟨_, hexec, .inl ⟨events, calls, rfl⟩⟩
  · exact ⟨_, hexec, .inr (hu.opened hshadow handle flip invert strobed dcLine resetLine).returned⟩

/-- The five ways an instruction ends. Only the first and the second give the codes -1 and 1. -/
inductive Ends (s t : State) (i : Instr) : Prop where
  | answered (code : Option Code) (h : t = s.onlyAnswered code)
  | failed (hi : i.isInit = true) (events : List Event) (calls : Nat) (h : t = s.failedInit events calls)
  | raised (cause : FaultCause) (h : Raised s t cause i)
  | zero (h : Returned s t (some .zero))
  | uncoded (h : Returned s t none)

theorem ends_finish_zero {s : State} {x : Flow} (h : ∃ e n, Inside s x.state e n) (i : Instr) :
    Ends s (x.finish i (some .zero)) i := by
  rcases Flow.finish_raised_or_returned h i (some .zero) with ⟨cause, hr⟩ | hr
  · exact .raised cause hr
  · exact .zero hr

theorem exec_ends {i : Instr} {s t : State} (h : exec i s = .next t) : Ends s t i := by
  have kept := keptBySequencer_inside s
  have here : ∃ e n, Inside s s e n := ⟨_, _, Inside.refl s⟩
  cases i with
  | init channel address flip invert strobed dcLine resetLine =>
    by_cases active : s.session = .active
    · rw [exec_init_of_active active] at h
      cases h
      exact .raised _ ⟨rfl, rfl, rfl⟩
    · obtain ⟨u, hexec, hends⟩ := exec_init_answers active channel address flip invert strobed dcLine resetLine
      obtain rfl := Host.Outcome.next.inj (hexec.symm.trans h)
      rcases hends with ⟨events, calls, hf⟩ | hz
      · exact .failed rfl events calls hf
      · exact .zero hz
  | shutdown =>
    by_cases active : s.session = .active
    · rw [exec_shutdown_of_active active, s.closeSession_eq] at h
      cases h
      exact .uncoded ⟨rfl, rfl, rfl⟩
    · rw [exec_shutdown_of_inactive active] at h
      cases h
      exact .answered none rfl
  | fill pattern =>
    by_cases active : s.session = .active
    · rw [exec_fill_of_active active] at h
      obtain rfl := Host.Outcome.next.inj h
      exact ends_finish_zero (kept.fillPages pattern _ s here) _
    · rw [exec_fill_of_inactive active] at h
      cases h
      exact .answered _ rfl
  | setPixel x y color =>
    by_cases active : s.session = .active
    · by_cases hok : pixOk s.params.pixelBounds x y = true
      · rw [exec_setPixel_of_pixOk color active hok] at h
        cases h
        exact ends_finish_zero (kept.drawPixel x y color s here) _
      · rw [exec_setPixel_of_not_pixOk color active (by simpa using hok)] at h
        cases h
        exact .answered _ rfl
    · rw [exec_setPixel_of_inactive active] at h
      cases h
      exact .answered _ rfl
  | writeString col row text large =>
    by_cases active : s.session = .active
    · rw [exec_writeString_of_active active] at h
      cases h
      split
      · exact .raised _ ⟨rfl, rfl, rfl⟩
      · split
        · exact .answered _ rfl
        · exact ends_finish_zero (kept.drawText col row _ large s here) _
    · rw [exec_writeString_of_inactive active] at h
      cases h
      exact .answered _ rfl
  | setContrast level =>
    rw [exec_setContrast] at h
    cases h
    split
    · exact .zero (returned_ret_of_inside ⟨_, _, inside_writeCommand s _⟩ _)
    · exact .answered _ rfl
  | setCursor column page =>
    cases h
    exact .uncoded (returned_ret_of_inside ⟨_, _, inside_setCursor s column page⟩ none)
  | writeData bytes =>
    cases h
    rcases Flow.finish_raised_or_returned (kept.writeData s bytes here) (.writeData bytes) none with ⟨cause, hr⟩ | hr
    · exact .raised cause hr
    · exact .uncoded hr
  | xform8 => cases h; exact .uncoded ⟨rfl, rfl, rfl⟩
  | xform16 => cases h; exact .uncoded ⟨rfl, rfl, rfl⟩
  | _ => cases h; exact .uncoded (returned_ret_of_inside ⟨_, _, inside_writeCommand s _⟩ none)

/-- Settles O55: four of the five ways to end return, one raises. -/
theorem returnsOrRaises : Obligations.ReturnsOrRaises := by
  intro i s t h
  cases exec_ends h with
  | answered code ht => exact .inl ⟨code, ht ▸ returned_onlyAnswered s code⟩
  | failed _ events calls ht => exact .inl ⟨some .one, ht ▸ returned_failedInit s events calls⟩
  | raised cause hr => exact .inr ⟨cause, hr⟩
  | zero hr => exact .inl ⟨_, hr⟩
  | uncoded hr => exact .inl ⟨_, hr⟩

theorem append_singleton_inj {α : Type} {l : List α} {a b : α} (h : l ++ [a] = l ++ [b]) : a = b :=
  List.singleton_inj.mp (List.append_cancel_left h)

/-- Settles O59: of the ways to end, only the bare answer and the failed INIT record a code other than 0. -/
theorem failedRequestKeepsState : Obligations.FailedRequestKeepsState := by
  intro i s t c h hresponses hc
  cases exec_ends h with
  | answered code ht =>
    subst ht
    have hcode : code = some c := append_singleton_inj hresponses
    subst hcode
    exact ⟨⟨rfl, rfl, rfl, rfl, rfl⟩, ⟨rfl, rfl, rfl⟩, ⟨rfl, rfl⟩, ⟨rfl, rfl⟩, returned_onlyAnswered s _, fun _ => rfl⟩
  | failed hi events calls ht =>
    subst ht
    have hone : some .one = some c := append_singleton_inj hresponses
    refine ⟨⟨rfl, rfl, rfl, rfl, rfl⟩, ⟨rfl, rfl, rfl⟩, ⟨rfl, rfl⟩, ⟨rfl, rfl⟩, hone ▸ returned_failedInit s events calls,
      fun hnot => ?_⟩
    rw [hi] at hnot
    exact absurd hnot (by decide)
  | raised cause hr =>
    have hlen := congrArg List.length (hr.responses.symm.trans hresponses)
    simp at hlen
  | zero hr =>
    have hzero : some .zero = some c := append_singleton_inj (hr.responses.symm.trans hresponses)
    exact absurd (Option.some.inj hzero).symm hc
  | uncoded hr =>
    have hnone : none = some c := append_singleton_inj (hr.responses.symm.trans hresponses)
    cases hnone

end Sys2Proof.Machine

/-! ## Which instruction writes what (10_state section 6) -/

namespace Sys2Proof.Machine

/-- Draws, sends and faults leave the session registers, the tables and the inputs. -/
theorem Draws.frame {s t : State} {i : Instr} (h : Draws s i t) : SameSession s t ∧ SameTables s t ∧ SameInputs s t := by
  obtain ⟨u, e, n, hu, ⟨c, rfl⟩ | ⟨c, rfl⟩⟩ := h
  · obtain ⟨-, hsession, htables, hinputs, -⟩ := hu.ret c
    exact ⟨hsession, htables, hinputs⟩
  · obtain ⟨-, -, hsession, htables, hinputs⟩ := hu.raise c i
    exact ⟨hsession, htables, hinputs⟩

/-- Settles O50: of the things an instruction can do, only a session begun and a session closed write the registers. -/
theorem sessionWriters : Obligations.SessionWriters := by
  intro i s t h
  rcases exec_cases h with hd | ⟨hi, hinactive, ⟨events, calls, rfl⟩ | ⟨u, handle, f, v, st, d, r, ⟨e, n, hu⟩, hs, rfl⟩⟩ |
    ⟨rfl, hactive, rfl⟩ | ⟨-, rfl⟩ | ⟨-, rfl⟩
  · exact .inl hd.frame.1
  · exact .inl ⟨rfl, rfl, rfl, rfl, rfl⟩
  · have hopened := hu.opened hs handle f v st d r
    exact .inr (.inl ⟨hi, hinactive, hopened.session, by rw [hopened.handle]; rfl⟩)
  · rw [s.closeSession_eq]
    exact .inr (.inr ⟨rfl, hactive, rfl, rfl, rfl, rfl, rfl⟩)
  · exact .inl ⟨rfl, rfl, rfl, rfl, rfl⟩
  · exact .inl ⟨rfl, rfl, rfl, rfl, rfl⟩

/-- Settles O51: only a session begun and the two transforms write the tables. -/
theorem tableWriters : Obligations.TableWriters := by
  intro i s t h
  rcases exec_cases h with hd | ⟨hi, -, ⟨events, calls, rfl⟩ | ⟨u, handle, f, v, st, d, r, ⟨e, n, hu⟩, hs, rfl⟩⟩ |
    ⟨-, -, rfl⟩ | ⟨hi, rfl⟩ | ⟨hi, rfl⟩
  · exact .inl hd.frame.2.1
  · exact .inl ⟨rfl, rfl, rfl⟩
  · have hopened := hu.opened hs handle f v st d r
    exact .inr (.inl ⟨hi, hopened.session, hopened.tables⟩)
  · rw [s.closeSession_eq]
    exact .inl ⟨rfl, rfl, rfl⟩
  · exact .inr (.inr (.inl ⟨hi, rfl, rfl⟩))
  · exact .inr (.inr (.inr ⟨hi, rfl, rfl⟩))

theorem exec_sameInputs {i : Instr} {s t : State} (h : exec i s = .next t) : SameInputs s t := by
  rcases exec_cases h with hd | ⟨-, -, ⟨events, calls, rfl⟩ | ⟨u, handle, f, v, st, d, r, ⟨e, n, hu⟩, hs, rfl⟩⟩ |
    ⟨-, -, rfl⟩ | ⟨-, rfl⟩ | ⟨-, rfl⟩
  · exact hd.frame.2.2
  · exact ⟨rfl, rfl⟩
  · exact (hu.opened hs handle f v st d r).inputs
  · rw [s.closeSession_eq]
    exact ⟨rfl, rfl⟩
  · exact ⟨rfl, rfl⟩
  · exact ⟨rfl, rfl⟩

/-- Settles O54: waiting and raising write neither, and no instruction does. -/
theorem inputsKept : Obligations.InputsKept := by
  intro s t h
  rcases step_cases h with rfl | ⟨c, p, rfl⟩ | ⟨i, hi⟩
  · exact ⟨rfl, rfl⟩
  · exact ⟨rfl, rfl⟩
  · exact exec_sameInputs hi

/-! ### The shadow -/

/-- The instructions that may write the shadow or the cursor: the drawing requests in Active, SET_CURSOR, WRITE_DATA. -/
def MayDraw (i : Instr) (s : State) : Prop :=
  (s.session = .active ∧ ((∃ p, i = .fill p) ∨ (∃ x y c, i = .setPixel x y c) ∨
    ∃ col row text large, i = .writeString col row text large)) ∨ (∃ c p, i = .setCursor c p) ∨ ∃ b, i = .writeData b

theorem sameShadow_or_mayDraw {i : Instr} {s t : State} (h : exec i s = .next t) : SameShadow s t ∨ MayDraw i s := by
  cases i with
  | init channel address flip invert strobed dcLine resetLine =>
    refine .inl ?_
    by_cases active : s.session = .active
    · rw [exec_init_of_active active] at h
      cases h
      exact ⟨rfl, rfl⟩
    · rcases exec_init_cases active channel address flip invert strobed dcLine resetLine with
        ⟨events, calls, hexec⟩ | ⟨u, handle, ⟨e, n, hu⟩, hshadow, hexec⟩ <;>
        obtain rfl := Host.Outcome.next.inj (hexec.symm.trans h)
      · exact ⟨rfl, rfl⟩
      · exact (hu.opened hshadow handle flip invert strobed dcLine resetLine).shadow
  | shutdown =>
    refine .inl ?_
    by_cases active : s.session = .active
    · rw [exec_shutdown_of_active active, s.closeSession_eq] at h
      cases h
      exact ⟨rfl, rfl⟩
    · rw [exec_shutdown_of_inactive active] at h
      cases h
      exact ⟨rfl, rfl⟩
  | fill p =>
    by_cases active : s.session = .active
    · exact .inr (.inl ⟨active, .inl ⟨p, rfl⟩⟩)
    · rw [exec_fill_of_inactive active] at h
      cases h
      exact .inl ⟨rfl, rfl⟩
  | setPixel x y c =>
    by_cases active : s.session = .active
    · exact .inr (.inl ⟨active, .inr (.inl ⟨x, y, c, rfl⟩)⟩)
    · rw [exec_setPixel_of_inactive active] at h
      cases h
      exact .inl ⟨rfl, rfl⟩
  | writeString col row text large =>
    by_cases active : s.session = .active
    · exact .inr (.inl ⟨active, .inr (.inr ⟨col, row, text, large, rfl⟩)⟩)
    · rw [exec_writeString_of_inactive active] at h
      cases h
      exact .inl ⟨rfl, rfl⟩
  | setContrast level =>
    rw [exec_setContrast] at h
    cases h
    split
    · exact .inl ⟨by simp, by simp⟩
    · exact .inl ⟨rfl, rfl⟩
  | setCursor c p => exact .inr (.inr (.inl ⟨c, p, rfl⟩))
  | writeData b => exact .inr (.inr (.inr ⟨b, rfl⟩))
  | xform8 => cases h; exact .inl ⟨rfl, rfl⟩
  | xform16 => cases h; exact .inl ⟨rfl, rfl⟩
  | _ => cases h; exact .inl ⟨by simp, by simp⟩

/-- What holds of the shadow and is kept by SET_CURSOR and WRITE_DATA holds at the end of the request too. -/
theorem Flow.finish_keeps {P : Memory → Prop} {x : Flow} (h : P x.state.shadow) (i : Instr) (code : Option Code) :
    P (x.finish i code).shadow := by
  cases x <;> exact h

/-- Every instruction keeps what SET_CURSOR and WRITE_DATA keep of the shadow. -/
theorem exec_keeps_shadow {P : Memory → Prop} (kept : KeptBySequencer fun u => P u.shadow) {i : Instr} {s t : State}
    (h : exec i s = .next t) (hs : P s.shadow) : P t.shadow := by
  rcases sameShadow_or_mayDraw h with hsame | ⟨active, ⟨p, rfl⟩ | ⟨x, y, c, rfl⟩ | ⟨col, row, text, large, rfl⟩⟩ |
    ⟨c, p, rfl⟩ | ⟨b, rfl⟩
  · rwa [hsame.shadow]
  · rw [exec_fill_of_active active] at h
    obtain rfl := Host.Outcome.next.inj h
    exact Flow.finish_keeps (kept.fillPages p _ s hs) ..
  · by_cases hok : pixOk s.params.pixelBounds x y = true
    · rw [exec_setPixel_of_pixOk c active hok] at h
      cases h
      exact Flow.finish_keeps (kept.drawPixel x y c s hs) ..
    · rw [exec_setPixel_of_not_pixOk c active (by simpa using hok)] at h
      cases h
      exact hs
  · rw [exec_writeString_of_active active] at h
    cases h
    split
    · exact hs
    · split
      · exact hs
      · exact Flow.finish_keeps (kept.drawText col row _ large s hs) ..
  · cases h
    exact kept.setCursor s c p hs
  · cases h
    exact Flow.finish_keeps (kept.writeData s b hs) ..

/-- WRITE_DATA's range check keeps every byte from 1024 on. -/
theorem keptBySequencer_outside (m : Memory) :
    KeptBySequencer fun u => ∀ a, 1024 ≤ a → u.shadow.read a = m.read a where
  setCursor := fun t c p h => by rwa [State.setCursor_shadow]
  writeData := fun t b h a ha => by
    by_cases hr : shadowInRange t.cursor b.length = true
    · obtain ⟨u, hu, -, hshadow, -⟩ := writeData_go t b hr
      have hrange := (shadowInRange_iff _ _).mp hr
      rw [hu, Flow.state_go, hshadow, Memory.read_writeBytes, if_neg (by omega), h a ha]
    · rw [writeData_raised t b (by simpa using hr)]
      exact h a ha

/-- Settles O52: the bytes past the shadow are kept by the range check, and the writers are the drawing instructions. -/
theorem shadowWriters : Obligations.ShadowWriters := by
  intro i s t h
  refine ⟨exec_keeps_shadow (P := fun m => ∀ a, 1024 ≤ a → m.read a = s.shadow.read a)
    (keptBySequencer_outside s.shadow) h fun _ _ => rfl, ?_⟩
  rcases sameShadow_or_mayDraw h with hsame | hdraws | ⟨c, p, rfl⟩ | hdata
  · exact .inl hsame
  · exact .inr (.inl hdraws)
  · cases h
    exact .inr (.inr (.inl ⟨c, p, rfl, s.setCursor_shadow c p⟩))
  · exact .inr (.inr (.inr hdata))

end Sys2Proof.Machine

/-! ## The invariant (10_state) -/

namespace Sys2Proof.Machine

/-- What an instruction leaves of the tables: each as it was or transformed, and a count that is no smaller. -/
structure TablesKept (s t : State) : Prop where
  font8 : t.font8 = s.font8 ∨ t.font8 = rotateFont8 s.font8
  font16 : t.font16 = s.font16 ∨ t.font16 = rotateFont16 s.font16
  count : s.xformCount ≤ t.xformCount

theorem SameTables.kept {s t : State} (h : SameTables s t) : TablesKept s t :=
  ⟨.inl h.font8, .inl h.font16, h.xformCount.ge⟩

/-- After a successful INIT the tables have been transformed at least once (R200). -/
theorem TablesAfterInit.kept {s t : State} (h : TablesAfterInit s t) : TablesKept s t ∧ 0 < t.xformCount := by
  unfold TablesAfterInit at h
  split at h
  · next skipped => exact ⟨h.kept, h.xformCount ▸ skipped.2⟩
  · obtain ⟨h8, h16, hcount⟩ := h
    exact ⟨⟨.inr h8, .inr h16, by omega⟩, by omega⟩

theorem TablesKept.wf {s t : State} (h : TablesKept s t) (hs : s.Inv) :
    t.font8.wf font8Size = true ∧ t.font16.wf font16Size = true := by
  refine ⟨?_, ?_⟩
  · rcases h.font8 with h8 | h8 <;> rw [h8]
    · exact hs.font8_wf
    · exact wf_rotateFont8 hs.font8_wf
  · rcases h.font16 with h16 | h16 <;> rw [h16]
    · exact hs.font16_wf
    · exact wf_rotateFont16 hs.font16_wf

theorem exec_tablesKept {i : Instr} {s t : State} (h : exec i s = .next t) : TablesKept s t := by
  rcases exec_cases h with hd | ⟨-, -, ⟨events, calls, rfl⟩ | ⟨u, handle, f, v, st, d, r, ⟨e, n, hu⟩, hs, rfl⟩⟩ |
    ⟨-, -, rfl⟩ | ⟨-, rfl⟩ | ⟨-, rfl⟩
  · exact hd.frame.2.1.kept
  · exact ⟨.inl rfl, .inl rfl, le_rfl⟩
  · exact (hu.opened hs handle f v st d r).tables.kept.1
  · rw [s.closeSession_eq]
    exact ⟨.inl rfl, .inl rfl, le_rfl⟩
  · exact ⟨.inr rfl, .inl rfl, le_rfl⟩
  · exact ⟨.inl rfl, .inr rfl, le_rfl⟩

/-- The clause on the index: a return counts one response more, a fault none. -/
theorem exec_counted {i : Instr} {s t : State} (h : exec i s = .next t) (hs : s.responses.length = s.next) :
    t.responses.length = t.next := by
  rcases returnsOrRaises i s t h with ⟨c, hr⟩ | ⟨cause, hr⟩
  · rw [hr.responses, hr.next, List.length_append, hs, List.length_singleton]
  · rw [hr.responses, hr.next, hs]

/-- The clauses on the session: registers kept, a session begun with a handle and transformed tables, or one closed. -/
theorem exec_session_clauses {i : Instr} {s t : State} (h : exec i s = .next t) (hs : s.Inv) :
    (t.session = .active ↔ t.handle.isSome = true) ∧ (t.session = .uninitialized ∨ 0 < t.xformCount) := by
  have hcount := (exec_tablesKept h).count
  rcases sessionWriters i s t h with hsame | ⟨hi, hinactive, hactive, hhandle⟩ | ⟨rfl, hactive, hclosed, hnone, -⟩
  · rw [hsame.session, hsame.handle]
    exact ⟨hs.handle_iff, hs.transformed.imp_right fun hpos => by omega⟩
  · refine ⟨iff_of_true hactive hhandle, .inr ?_⟩
    rcases exec_cases h with ⟨u, e, n, hu, ⟨c, rfl⟩ | ⟨c, rfl⟩⟩ |
      ⟨-, -, ⟨events, calls, rfl⟩ | ⟨u, handle, f, v, st, d, r, ⟨e, n, hu⟩, hshadow, rfl⟩⟩ | ⟨rfl, -⟩ | ⟨rfl, -⟩ | ⟨rfl, -⟩
    · exact absurd (hu.session.session.symm.trans hactive) hinactive
    · exact absurd (hu.session.session.symm.trans hactive) hinactive
    · exact absurd hactive hinactive
    · exact (hu.opened hshadow handle f v st d r).tables.kept.2
    all_goals cases hi
  · refine ⟨by simp [hclosed, hnone], .inr ?_⟩
    rcases hs.transformed with hun | hpos
    · rw [hun] at hactive
      cases hactive
    · omega

theorem exec_keeps_inv {i : Instr} {s t : State} (hs : s.Inv) (h : exec i s = .next t) : t.Inv := by
  obtain ⟨h8, h16⟩ := (exec_tablesKept h).wf hs
  obtain ⟨hhandle, htransformed⟩ := exec_session_clauses h hs
  exact
    { shadow_wf := exec_keeps_shadow (P := fun m => m.wf shadowSize = true) keptBySequencer_wf h hs.shadow_wf
      font8_wf := h8
      font16_wf := h16
      params_wf := by rw [(exec_sameInputs h).params, hs.params_wf]
      handle_iff := hhandle
      transformed := htransformed
      counted := exec_counted h hs.counted }

/-- Settles O48: the invariant speaks of no field that waiting or raising writes, and every instruction keeps it. -/
theorem stepKeepsInvariant : Obligations.StepKeepsInvariant := by
  intro s t hs h
  rcases step_cases h with rfl | ⟨c, p, rfl⟩ | ⟨i, hi⟩
  · exact hs
  · exact ⟨hs.shadow_wf, hs.font8_wf, hs.font16_wf, hs.params_wf, hs.handle_iff, hs.transformed, hs.counted⟩
  · exact exec_keeps_inv hs hi

end Sys2Proof.Machine

/-! ## Requests within the contract (60_exceptions sections 2 and 7) -/

namespace Sys2Proof.Machine

/-- The instruction answers a next state in which it returned. -/
def Returns (i : Instr) (s : State) : Prop := ∃ t c, exec i s = .next t ∧ Returned s t c

theorem returns_of_onlyAnswered {i : Instr} {s : State} {code : Option Code}
    (h : exec i s = .next (s.onlyAnswered code)) : Returns i s := ⟨_, _, h, returned_onlyAnswered s code⟩

/-- From Active, a text in a cell of the grid is too short to draw or fits, in either font (R240, R243). -/
theorem returns_writeString_inContract {col row : Int} {text : List Byte} {large : Bool} {s : State}
    (active : s.session = .active) (h : (Instr.writeString col row text large).inContract = true) :
    Returns (.writeString col row text large) s := by
  simp only [Instr.inContract, Bool.and_eq_true, decide_eq_true_eq] at h
  obtain ⟨⟨hc0, hcol, hr0, hr7⟩, hlarge⟩ := h
  by_cases hne : text = []
  · refine returns_of_onlyAnswered ((outOfBoundsFails s active).2 col row text large hc0 hr0 hr7 ?_)
    simp [hne, hcol.le]
  · cases large with
    | false =>
      obtain ⟨t, ht, -, -, -, -, -, -, -, -, hreturned⟩ := smallTextResult col row text s active hc0 hcol hr0 hr7 hne
      exact ⟨t, _, ht, hreturned⟩
    | true =>
      simp only [Bool.not_true, Bool.false_or, Bool.and_eq_true, decide_eq_true_eq, List.all_eq_true] at hlarge
      obtain ⟨hr5, hcodes⟩ := hlarge
      obtain ⟨t, ht, -, -, -, -, -, -, -, hreturned⟩ := largeTextResult col row text s active hc0 hcol hr0 hr5 hne
        fun c hc => hcodes c (List.mem_of_mem_take hc)
      exact ⟨t, _, ht, hreturned⟩

theorem returns_setPixel_onPanel {x y : Int} (color : Byte) {s : State} (active : s.session = .active)
    (hx : 0 ≤ x ∧ x ≤ 127) (hy : 0 ≤ y ∧ y ≤ 63) : Returns (.setPixel x y color) s := by
  have hok := pixOk_of_onPanel s.params.pixelBounds hx hy
  obtain ⟨t, e, n, ht, hinside, -⟩ := s.drawPixel_go color (pixOk_range hok)
  exact ⟨t.ret (some .zero), _, by rw [exec_setPixel_of_pixOk color active hok, ht, Flow.finish_go],
    returned_ret_of_inside ⟨e, n, hinside⟩ _⟩

theorem returns_init {s : State} (inactive : s.session ≠ .active) (channel address : Nat) (flip invert strobed : Bool)
    (dcLine resetLine : Nat) : Returns (.init channel address flip invert strobed dcLine resetLine) s := by
  obtain ⟨t, hexec, ⟨events, calls, hf⟩ | hz⟩ :=
    exec_init_answers inactive channel address flip invert strobed dcLine resetLine
  · exact ⟨t, _, hexec, hf ▸ returned_failedInit s events calls⟩
  · exact ⟨t, _, hexec, hz⟩

/-- Settles O56: request by request, no path within the contract raises. -/
theorem inContractNeverRaises : Obligations.InContractNeverRaises := by
  intro i s hport hcontract hinit
  by_cases active : s.session = .active
  · cases i with
    | init => exact absurd active (hinit rfl)
    | shutdown =>
      obtain ⟨t, ht, -, -, -, -, -, -, -, -, -, hreturned⟩ := (shutdownResult s).1 active
      exact ⟨t, none, ht, hreturned⟩
    | fill pattern =>
      obtain ⟨t, ht, -, -, -, -, -, -, -, hreturned⟩ := (fillResult pattern s).1 active
      exact ⟨t, _, ht, hreturned⟩
    | setPixel x y color =>
      obtain ⟨hx0, hx, hy0, hy⟩ := of_decide_eq_true hcontract
      exact returns_setPixel_onPanel color active ⟨hx0, hx⟩ ⟨hy0, hy⟩
    | writeString col row text large => exact returns_writeString_inContract active hcontract
    | setContrast level => exact ⟨_, _, (contrastResult level s).1 active, ⟨rfl, rfl, rfl⟩⟩
    | _ => cases hport
  · obtain ⟨hfill, hpixel, hstring, hcontrast, hshutdown⟩ := notActiveFails s active
    cases i with
    | init channel address flip invert strobed dcLine resetLine => exact returns_init active ..
    | shutdown => exact returns_of_onlyAnswered hshutdown
    | fill pattern => exact returns_of_onlyAnswered (hfill pattern)
    | setPixel x y color => exact returns_of_onlyAnswered (hpixel x y color)
    | writeString col row text large => exact returns_of_onlyAnswered (hstring col row text large)
    | setContrast level => exact returns_of_onlyAnswered (hcontrast level)
    | _ => cases hport

end Sys2Proof.Machine

/-! ## Two runs from states that differ in what is not looked at -/

namespace Sys2Proof.Machine

/-- A relation between states that a request's calls keep, since they look at nothing in which related states differ. What a
request looks at besides its answers stands in `session` and `params`. -/
structure KeptByCalls (R : State → State → Prop) : Prop where
  session : ∀ {s t}, R s t → t.session = s.session
  params : ∀ {s t}, R s t → t.params = s.params
  closeEvent : ∀ {s t}, R s t → t.closeEvent = s.closeEvent
  ret : ∀ {s t} code, R s t → R (s.ret code) (t.ret code)
  raise : ∀ {s t} cause request, R s t → R (s.raise cause request) (t.raise cause request)
  emit : ∀ {s t} e, R s t → R (s.emit e) (t.emit e)
  drawn : ∀ {s t}, R s t → R s.drawn t.drawn
  writeCommand : ∀ {s t} bytes, R s t → R (s.writeCommand bytes) (t.writeCommand bytes)
  commitSession : ∀ {s t} handle strobed dcLine resetLine, R s t →
    R (s.commitSession handle strobed dcLine resetLine) (t.commitSession handle strobed dcLine resetLine)
  xform : ∀ {s t}, R s t → R s.xform t.xform
  activate : ∀ {s t}, R s t → R { s with session := .active } { t with session := .active }
  close : ∀ {s t}, R s t → R { s with handle := none, session := .closed } { t with handle := none, session := .closed }

/-- Two ways through a request that end the same way, in related states. -/
inductive Flow.Alike (R : State → State → Prop) : Flow → Flow → Prop where
  | go {s t : State} (h : R s t) : Flow.Alike R (.go s) (.go t)
  | raised (cause : FaultCause) {s t : State} (h : R s t) : Flow.Alike R (.raised cause s) (.raised cause t)

theorem Flow.Alike.refl {R : State → State → Prop} (h : ∀ s, R s s) (x : Flow) : x.Alike R x := by
  cases x with
  | go s => exact .go (h s)
  | raised cause s => exact .raised cause (h s)

theorem Flow.Alike.andThen {R : State → State → Prop} {x y : Flow} {k l : State → Flow} (h : x.Alike R y)
    (hk : ∀ s t, R s t → (k s).Alike R (l t)) : (x.andThen k).Alike R (y.andThen l) := by
  cases h with
  | go h => exact hk _ _ h
  | raised cause h => exact .raised cause h

/-- An instruction ends alike from two states. -/
def ExecAlike (R : State → State → Prop) (i : Instr) (s t : State) : Prop :=
  ∃ s' t', exec i s = .next s' ∧ exec i t = .next t' ∧ R s' t'

section
variable {R : State → State → Prop} (kept : KeptByCalls R) {s t : State}
include kept

theorem KeptByCalls.finish {x y : Flow} (h : x.Alike R y) (i : Instr) (code : Option Code) :
    R (x.finish i code) (y.finish i code) := by
  cases h with
  | go h => exact kept.ret code h
  | raised cause h => exact kept.raise cause (.record i) h

theorem KeptByCalls.called (e : Event) (h : R s t) : R (s.called e) (t.called e) := kept.drawn (kept.emit e h)

theorem KeptByCalls.resetPulse (line : Nat) (h : R s t) : R (s.resetPulse line) (t.resetPulse line) := by
  rw [State.resetPulse, State.resetPulse, kept.params h]
  exact kept.emit _ (kept.emit _ (kept.emit _ h))

theorem KeptByCalls.optionalCommands (flip invert : Bool) (h : R s t) :
    R (s.optionalCommands flip invert) (t.optionalCommands flip invert) := by
  have hinvert : R (if invert then s.writeCommand [0xA7] else s) (if invert then t.writeCommand [0xA7] else t) := by
    cases invert with
    | false => exact h
    | true => exact kept.writeCommand _ h
  cases flip with
  | false => exact hinvert
  | true => exact kept.writeCommand _ (kept.writeCommand _ hinvert)

theorem KeptByCalls.startSession (handle : Nat) (flip invert strobed : Bool) (dcLine resetLine : Nat) (h : R s t) :
    R (s.startSession handle flip invert strobed dcLine resetLine)
      (t.startSession handle flip invert strobed dcLine resetLine) := by
  rw [State.startSession, State.startSession, kept.params h]
  exact kept.ret _ (kept.activate (kept.optionalCommands flip invert
    (kept.xform (kept.writeCommand _ (kept.commitSession handle strobed dcLine resetLine h)))))

/-- A call that looks at its answer: with the next answers the same, it goes on or fails in both runs. -/
theorem KeptByCalls.callOrFail (m : Nat) (e : Event) (k l : Nat → State → State) (h : R s t)
    (ha : ∀ j < m + 1, t.answerAt j = s.answerAt j)
    (hk : ∀ v, (∀ j < m, (t.called e).answerAt j = (s.called e).answerAt j) → R (k v (s.called e)) (l v (t.called e))) :
    R (s.callOrFail e k) (t.callOrFail e l) := by
  have hfirst := ha 0 (by omega)
  cases hanswer : s.answerAt 0 with
  | error =>
    rw [State.callOrFail_error s e k hanswer, State.callOrFail_error t e l (hfirst.trans hanswer)]
    exact kept.ret _ (kept.called e h)
  | ok v =>
    rw [State.callOrFail_ok s e k hanswer, State.callOrFail_ok t e l (hfirst.trans hanswer)]
    refine hk v fun j hj => ?_
    rw [State.called_answerAt, State.called_answerAt, ha (j + 1) (by omega)]

theorem KeptByCalls.openEvent (channel address : Nat) (strobed : Bool) (h : R s t) :
    t.openEvent channel address strobed = s.openEvent channel address strobed := by
  rw [State.openEvent, State.openEvent, kept.params h]

theorem KeptByCalls.afterOpen (handle : Nat) (flip invert strobed : Bool) (dcLine resetLine : Nat) (h : R s t)
    (ha : ∀ j < 2, t.answerAt j = s.answerAt j) :
    R (s.afterOpen handle flip invert strobed dcLine resetLine)
      (t.afterOpen handle flip invert strobed dcLine resetLine) := by
  rw [State.afterOpen, State.afterOpen]
  cases strobed with
  | false => exact kept.startSession handle flip invert false dcLine resetLine h
  | true =>
    rw [if_pos rfl, if_pos rfl]
    refine kept.callOrFail 1 _ _ _ h ha fun _ ha => ?_
    have h := kept.called (.gpioRegister dcLine) h
    refine kept.callOrFail 0 _ _ _ h ha fun _ _ => ?_
    exact kept.startSession handle flip invert true dcLine resetLine
      (kept.resetPulse resetLine (kept.called (.gpioRegister resetLine) h))

theorem KeptByCalls.exec_init (channel address : Nat) (flip invert strobed : Bool) (dcLine resetLine : Nat)
    (h : R s t) (ha : ∀ j < 4, t.answerAt j = s.answerAt j) :
    ExecAlike R (.init channel address flip invert strobed dcLine resetLine) s t := by
  by_cases active : s.session = .active
  · exact ⟨_, _, exec_init_of_active active .., exec_init_of_active ((kept.session h).trans active) .., kept.raise _ _ h⟩
  · refine ⟨_, _, exec_init_of_inactive active .., exec_init_of_inactive (kept.session h ▸ active) .., ?_⟩
    refine kept.callOrFail 3 _ _ _ h ha fun _ ha => ?_
    have h := kept.called .hwInit h
    rw [kept.openEvent channel address strobed h]
    refine kept.callOrFail 2 _ _ _ h ha fun handle ha => ?_
    exact kept.afterOpen handle flip invert strobed dcLine resetLine (kept.called _ h) ha

theorem KeptByCalls.exec_shutdown (h : R s t) : ExecAlike R .shutdown s t := by
  by_cases active : s.session = .active
  · refine ⟨_, _, exec_shutdown_of_active active, exec_shutdown_of_active ((kept.session h).trans active),
      kept.ret none ?_⟩
    rw [State.closeSession, State.closeSession, kept.closeEvent h]
    exact kept.close (kept.emit _ (kept.emit _ (kept.writeCommand _ h)))
  · exact ⟨_, _, exec_shutdown_of_inactive active, exec_shutdown_of_inactive (kept.session h ▸ active), kept.ret none h⟩

theorem KeptByCalls.exec_setContrast (level : Byte) (h : R s t) : ExecAlike R (.setContrast level) s t := by
  refine ⟨_, _, Machine.exec_setContrast level s, Machine.exec_setContrast level t, ?_⟩
  rw [kept.session h]
  split
  · exact kept.ret _ (kept.writeCommand _ h)
  · exact kept.ret _ h

theorem KeptByCalls.exec_fill (pattern : Byte) (h : R s t)
    (hpages : (fillPages pattern (List.range' 0 8) s).Alike R (fillPages pattern (List.range' 0 8) t)) :
    ExecAlike R (.fill pattern) s t := by
  by_cases active : s.session = .active
  · exact ⟨_, _, exec_fill_of_active active pattern, exec_fill_of_active ((kept.session h).trans active) pattern,
      kept.finish hpages _ _⟩
  · exact ⟨_, _, exec_fill_of_inactive active pattern, exec_fill_of_inactive (kept.session h ▸ active) pattern,
      kept.ret _ h⟩

theorem KeptByCalls.exec_setPixel (x y : Int) (color : Byte) (h : R s t)
    (hdraw : (s.drawPixel x y color).Alike R (t.drawPixel x y color)) : ExecAlike R (.setPixel x y color) s t := by
  by_cases active : s.session = .active
  · have active' := (kept.session h).trans active
    cases hok : pixOk s.params.pixelBounds x y with
    | true =>
      exact ⟨_, _, exec_setPixel_of_pixOk color active hok, exec_setPixel_of_pixOk color active' (kept.params h ▸ hok),
        kept.finish hdraw _ _⟩
    | false =>
      exact ⟨_, _, exec_setPixel_of_not_pixOk color active hok,
        exec_setPixel_of_not_pixOk color active' (kept.params h ▸ hok), kept.ret _ h⟩
  · exact ⟨_, _, exec_setPixel_of_inactive active x y color, exec_setPixel_of_inactive (kept.session h ▸ active) x y color,
      kept.ret _ h⟩

theorem KeptByCalls.exec_writeString (col row : Int) (text : List Byte) (large : Bool) (h : R s t)
    (hdraw : ∀ shown, (s.drawText col row shown large).Alike R (t.drawText col row shown large)) :
    ExecAlike R (.writeString col row text large) s t := by
  by_cases active : s.session = .active
  · refine ⟨_, _, exec_writeString_of_active active col row text large,
      exec_writeString_of_active ((kept.session h).trans active) col row text large, ?_⟩
    split
    · exact kept.raise _ _ h
    · split
      · exact kept.ret _ h
      · exact kept.finish (hdraw _) _ _
  · exact ⟨_, _, exec_writeString_of_inactive active col row text large,
      exec_writeString_of_inactive (kept.session h ▸ active) col row text large, kept.ret _ h⟩

end

/-! ### The cursor (70_reset R303) -/

/-- The second state is the first but for the cursor. -/
def ButCursor (s t : State) : Prop := ∃ c, t = { s with cursor := c }

theorem butCursor_refl (s : State) : ButCursor s s := ⟨s.cursor, rfl⟩

theorem keptByCalls_butCursor : KeptByCalls ButCursor where
  session := by rintro s _ ⟨c, rfl⟩; rfl
  params := by rintro s _ ⟨c, rfl⟩; rfl
  closeEvent := by rintro s _ ⟨c, rfl⟩; rfl
  ret := by rintro s _ code ⟨c, rfl⟩; exact ⟨c, rfl⟩
  raise := by rintro s _ cause request ⟨c, rfl⟩; exact ⟨c, rfl⟩
  emit := by rintro s _ e ⟨c, rfl⟩; exact ⟨c, rfl⟩
  drawn := by rintro s _ ⟨c, rfl⟩; exact ⟨c, rfl⟩
  writeCommand := by rintro s _ bytes ⟨c, rfl⟩; exact ⟨c, by rw [State.writeCommand_eq, State.writeCommand_eq]; rfl⟩
  commitSession := by rintro s _ handle strobed dcLine resetLine ⟨c, rfl⟩; exact ⟨c, by cases strobed <;> rfl⟩
  xform := by rintro s _ ⟨c, rfl⟩; exact ⟨c, by rw [State.xform_eq, State.xform_eq]; split <;> rfl⟩
  activate := by rintro s _ ⟨c, rfl⟩; exact ⟨c, rfl⟩
  close := by rintro s _ ⟨c, rfl⟩; exact ⟨c, rfl⟩

/-- SET_CURSOR writes the cursor without reading it (R166). -/
theorem ButCursor.setCursor_eq {s t : State} (h : ButCursor s t) (column page : Int) :
    t.setCursor column page = s.setCursor column page := by
  obtain ⟨c, rfl⟩ := h
  simp only [State.setCursor, State.writeCommand_eq]
  rfl

theorem ButCursor.fillPages {s t : State} (h : ButCursor s t) (pattern : Byte) (pages : List Nat) :
    (fillPages pattern pages s).Alike ButCursor (fillPages pattern pages t) := by
  cases pages with
  | nil => exact .go h
  | cons page pages =>
    rw [Machine.fillPages, Machine.fillPages, h.setCursor_eq]
    exact Flow.Alike.refl butCursor_refl _

theorem ButCursor.drawPixel {s t : State} (h : ButCursor s t) (x y : Int) (color : Byte) :
    (s.drawPixel x y color).Alike ButCursor (t.drawPixel x y color) := by
  have hread : t.readShadow (pixelIndex x y) 1 = s.readShadow (pixelIndex x y) 1 := by obtain ⟨c, rfl⟩ := h; rfl
  unfold State.drawPixel State.putPixel
  rw [hread, h.setCursor_eq]
  split
  · exact .raised _ h
  · dsimp only
    split
    · exact .go h
    · exact Flow.Alike.refl butCursor_refl _

theorem ButCursor.drawLarge {s t : State} (h : ButCursor s t) (row : Int) (text : List Byte) (cell : Int) :
    (drawLarge row text cell s).Alike ButCursor (drawLarge row text cell t) := by
  cases text with
  | nil => exact .go h
  | cons c text =>
    have hstrip : t.strip16 c 0 = s.strip16 c 0 := by obtain ⟨c, rfl⟩ := h; rfl
    rw [Machine.drawLarge, Machine.drawLarge, drawLargeGlyph, drawLargeGlyph]
    split
    · exact .raised _ h
    · rw [drawStrip, drawStrip, h.setCursor_eq, hstrip]
      exact Flow.Alike.refl butCursor_refl _

theorem ButCursor.drawText {s t : State} (h : ButCursor s t) (col row : Int) (text : List Byte) (large : Bool) :
    (s.drawText col row text large).Alike ButCursor (t.drawText col row text large) := by
  cases large with
  | false =>
    rw [State.drawText_small, State.drawText_small, h.setCursor_eq]
    exact Flow.Alike.refl butCursor_refl _
  | true => exact h.drawLarge row text col

/-- Settles O58: the calls do not look at the cursor, and a drawing request positions before it writes. -/
theorem cursorUnobservable : Obligations.CursorUnobservable := by
  intro i s c hport
  have h : ButCursor s { s with cursor := c } := ⟨c, rfl⟩
  have key : ExecAlike ButCursor i s { s with cursor := c } := by
    have kept := keptByCalls_butCursor
    cases i with
    | init channel address flip invert strobed dcLine resetLine =>
      exact kept.exec_init channel address flip invert strobed dcLine resetLine h fun _ _ => rfl
    | shutdown => exact kept.exec_shutdown h
    | fill pattern => exact kept.exec_fill pattern h (h.fillPages pattern _)
    | setPixel x y color => exact kept.exec_setPixel x y color h (h.drawPixel x y color)
    | writeString col row text large => exact kept.exec_writeString col row text large h fun _ => h.drawText ..
    | setContrast level => exact kept.exec_setContrast level h
    | _ => cases hport
  obtain ⟨t, t', ht, ht', _, rfl⟩ := key
  exact ⟨t, _, ht, ht', rfl⟩

/-! ### The answers of the writes (40_session section 6, R93) -/

/-- The second state is the first but for the answers to come. -/
def ButAnswers (s t : State) : Prop := ∃ answers n, t = { s with answers := answers, drawCount := n }

theorem keptByCalls_butAnswers : KeptByCalls ButAnswers where
  session := by rintro s _ ⟨a, n, rfl⟩; rfl
  params := by rintro s _ ⟨a, n, rfl⟩; rfl
  closeEvent := by rintro s _ ⟨a, n, rfl⟩; rfl
  ret := by rintro s _ code ⟨a, n, rfl⟩; exact ⟨a, n, rfl⟩
  raise := by rintro s _ cause request ⟨a, n, rfl⟩; exact ⟨a, n, rfl⟩
  emit := by rintro s _ e ⟨a, n, rfl⟩; exact ⟨a, n, rfl⟩
  drawn := by rintro s _ ⟨a, n, rfl⟩; exact ⟨a.tail, n + 1, rfl⟩
  writeCommand := by
    rintro s _ bytes ⟨a, n, rfl⟩
    exact ⟨a.tail, n + 1, by rw [State.writeCommand_eq, State.writeCommand_eq]; rfl⟩
  commitSession := by rintro s _ handle strobed dcLine resetLine ⟨a, n, rfl⟩; exact ⟨a, n, by cases strobed <;> rfl⟩
  xform := by rintro s _ ⟨a, n, rfl⟩; exact ⟨a, n, by rw [State.xform_eq, State.xform_eq]; split <;> rfl⟩
  activate := by rintro s _ ⟨a, n, rfl⟩; exact ⟨a, n, rfl⟩
  close := by rintro s _ ⟨a, n, rfl⟩; exact ⟨a, n, rfl⟩

section
variable {s t : State} (h : ButAnswers s t)
include h

theorem ButAnswers.memories : t.shadow = s.shadow ∧ t.font8 = s.font8 ∧ t.font16 = s.font16 := by
  obtain ⟨a, n, rfl⟩ := h
  exact ⟨rfl, rfl, rfl⟩

theorem ButAnswers.setCursor (column page : Int) : ButAnswers (s.setCursor column page) (t.setCursor column page) := by
  obtain ⟨a, n, rfl⟩ := h
  refine ⟨a.tail.tail.tail, n + 1 + 1 + 1, ?_⟩
  simp only [State.setCursor, State.writeCommand_eq]
  rfl

/-- WRITE_DATA copies whatever the answer (D14). -/
theorem ButAnswers.writeData (bytes : List Byte) : (s.writeData bytes).Alike ButAnswers (t.writeData bytes) := by
  obtain ⟨a, n, rfl⟩ := h
  rw [State.writeData, State.writeData]
  split
  · refine .go ⟨a.tail, n + 1, ?_⟩
    simp only [State.transfer_eq]
    rfl
  · exact .raised _ ⟨a, n, rfl⟩

theorem ButAnswers.drawPixel (x y : Int) (color : Byte) :
    (s.drawPixel x y color).Alike ButAnswers (t.drawPixel x y color) := by
  have hread : t.readShadow (pixelIndex x y) 1 = s.readShadow (pixelIndex x y) 1 := by
    rw [State.readShadow, State.readShadow, h.memories.1]
  unfold State.drawPixel
  rw [hread]
  split
  · exact .raised _ h
  · dsimp only
    split
    · exact .go h
    · exact (h.setCursor x (div8 y)).writeData _

theorem ButAnswers.drawStrip (c : Byte) (cell row : Int) (k : Nat) :
    (drawStrip c cell row k s).Alike ButAnswers (drawStrip c cell row k t) := by
  have hstrip : t.strip16 c k = s.strip16 c k := by rw [State.strip16, State.strip16, h.memories.2.2]
  rw [Machine.drawStrip, Machine.drawStrip, hstrip]
  exact (h.setCursor _ _).writeData _

theorem ButAnswers.drawLargeGlyph (c : Byte) (cell row : Int) :
    (drawLargeGlyph c cell row s).Alike ButAnswers (drawLargeGlyph c cell row t) := by
  rw [Machine.drawLargeGlyph, Machine.drawLargeGlyph]
  split
  · exact .raised _ h
  · exact ((h.drawStrip c cell row 0).andThen fun _ _ h1 => h1.drawStrip c cell row 1).andThen
      fun _ _ h2 => h2.drawStrip c cell row 2

end

theorem ButAnswers.fillPages {s t : State} (h : ButAnswers s t) (pattern : Byte) (pages : List Nat) :
    (fillPages pattern pages s).Alike ButAnswers (fillPages pattern pages t) := by
  induction pages generalizing s t with
  | nil => exact .go h
  | cons page pages ih => exact ((h.setCursor 0 page).writeData _).andThen fun _ _ h' => ih h'

theorem ButAnswers.drawSmall {s t : State} (h : ButAnswers s t) (text : List Byte) :
    (drawSmall text s).Alike ButAnswers (drawSmall text t) := by
  induction text generalizing s t with
  | nil => exact .go h
  | cons c text ih =>
    have hglyph : t.glyph8 c = s.glyph8 c := by rw [State.glyph8, State.glyph8, h.memories.2.1]
    rw [Machine.drawSmall, Machine.drawSmall, hglyph]
    exact (h.writeData _).andThen fun _ _ h' => ih h'

theorem ButAnswers.drawLarge {s t : State} (h : ButAnswers s t) (row : Int) (text : List Byte) (cell : Int) :
    (drawLarge row text cell s).Alike ButAnswers (drawLarge row text cell t) := by
  induction text generalizing s t cell with
  | nil => exact .go h
  | cons c text ih => exact (h.drawLargeGlyph c cell row).andThen fun _ _ h' => ih h' (cell + 1)

theorem ButAnswers.drawText {s t : State} (h : ButAnswers s t) (col row : Int) (text : List Byte) (large : Bool) :
    (s.drawText col row text large).Alike ButAnswers (t.drawText col row text large) := by
  cases large with
  | false => exact (h.setCursor (col * 8) row).drawSmall text
  | true => exact h.drawLarge row text col

/-- Settles O57: every operation keeps the difference to the answers to come, and INIT looks at the first four alone. -/
theorem writeAnswersIgnored : Obligations.WriteAnswersIgnored := by
  intro i s answers n hinit
  have h : ButAnswers s { s with answers := answers, drawCount := n } := ⟨answers, n, rfl⟩
  have key : ExecAlike ButAnswers i s { s with answers := answers, drawCount := n } := by
    have kept := keptByCalls_butAnswers
    cases i with
    | init channel address flip invert strobed dcLine resetLine =>
      exact kept.exec_init channel address flip invert strobed dcLine resetLine h (hinit rfl)
    | shutdown => exact kept.exec_shutdown h
    | fill pattern => exact kept.exec_fill pattern h (h.fillPages pattern _)
    | setPixel x y color => exact kept.exec_setPixel x y color h (h.drawPixel x y color)
    | writeString col row text large => exact kept.exec_writeString col row text large h fun _ => h.drawText ..
    | setContrast level => exact kept.exec_setContrast level h
    | setCursor column page => exact ⟨_, _, rfl, rfl, kept.ret none (h.setCursor column page)⟩
    | writeData bytes => exact ⟨_, _, rfl, rfl, kept.finish (h.writeData bytes) _ none⟩
    | xform8 => exact ⟨_, _, rfl, rfl, answers, n, rfl⟩
    | xform16 => exact ⟨_, _, rfl, rfl, answers, n, rfl⟩
    | _ => exact ⟨_, _, rfl, rfl, kept.ret none (kept.writeCommand _ h)⟩
  obtain ⟨t, t', ht, ht', _, _, rfl⟩ := key
  exact ⟨t, _, ht, ht', rfl⟩

end Sys2Proof.Machine
